-- ==== Sys2Proof/Word.lean ====
section
/-! DEFINITION. The two word types of the 6510 (R5, R7): a byte of 8 bits and an address or program-counter word of
16 bits. Arithmetic on them is that of `BitVec`, which is modulo 256 and modulo 65536, as R7 says. -/

namespace Sys2Proof

/-- An unsigned integer in 0..255 (R7): a register, a data byte, a zero-page address. -/
abbrev Byte := BitVec 8

/-- An unsigned integer in 0..65535 (R7): an address, the program counter. -/
abbrev Word := BitVec 16

end Sys2Proof
end

