-- ==== Sys2Proof/Machine/Bits.lean ====
section
/-! DEFINITION. Byte order, extension and word assembly (R7, R8, R64, R104): the helpers the decoder and the machine
share. -/

namespace Sys2Proof.Machine

/-- `Word(hi, lo) = hi * 256 + lo` (R8). -/
def mkWord (hi lo : Byte) : Word :=
  BitVec.ofNat 16 (hi.toNat * 256 + lo.toNat)

/-- Bits 7..0 of a word (PCL of R8). -/
def lowByte (w : Word) : Byte :=
  BitVec.ofNat 8 w.toNat

/-- Bits 15..8 of a word (PCH of R8): its page. -/
def highByte (w : Word) : Byte :=
  BitVec.ofNat 8 (w.toNat / 256)

/-- `zext_16` (R8): a byte as a word, value unchanged. -/
def zext (b : Byte) : Word :=
  b.setWidth 16

/-- `sext_16` (R8): a byte as a signed offset, -128..127 modulo 65536. -/
def sext (b : Byte) : Word :=
  b.signExtend 16

/-- The address `$0100 + SP` of the stack byte SP points at (R23: the high byte is hardwired). -/
def stackAddr (sp : Byte) : Word :=
  mkWord 0x01#8 sp

end Sys2Proof.Machine
end

