-- ==== Sys2Proof/Syntax.lean ====
section
/-! DEFINITION. The instruction set as syntax: the 56 mnemonics, the 13 addressing modes (30_encoding.md section 3), the
operands, and `Instr`, one constructor for each of the 151 rows of the opcode table (R101, R120). -/

namespace Sys2Proof

/-- The 56 instruction mnemonics (R101). -/
inductive Mnemonic where
  | lda | ldx | ldy | sta | stx | sty
  | tax | tay | txa | tya | tsx | txs | pha | php | pla | plp
  | adc | sbc | inc | dec | inx | iny | dex | dey
  | and | ora | eor | bit | asl | lsr | rol | ror
  | cmp | cpx | cpy | bcc | bcs | beq | bne | bmi | bpl | bvc | bvs
  | jmp | jsr | rts
  | clc | sec | cli | sei | cld | sed | clv | brk | nop | rti
deriving DecidableEq, Repr

/-- The 13 addressing modes (R105 to R117). -/
inductive Mode where
  | implied | accumulator | immediate
  | zeroPage | zeroPageX | zeroPageY
  | absolute | absoluteX | absoluteY
  | relative | indirectX | indirectY | absoluteIndirect
deriving DecidableEq, Repr

/-- The modes that name a byte of memory, with their operand (R108 to R112, R115, R116). -/
inductive AddrMode where
  | zpg (z : Byte)
  | zpgX (z : Byte)
  | zpgY (z : Byte)
  | abs (w : Word)
  | absX (w : Word)
  | absY (w : Word)
  | xInd (z : Byte)
  | indY (z : Byte)
deriving DecidableEq, Repr

/-- Where an instruction's operand byte `M` comes from: the instruction itself or memory (R107 to R116). -/
inductive DataOperand where
  | imm (m : Byte)
  | mem (m : AddrMode)
deriving DecidableEq, Repr

/-- An instruction's operand in any of the 13 modes. The operand of JMP and JSR in Absolute mode is `data (mem (abs w))`
(R111: their effective address is the new PC). -/
inductive Operand where
  | implied
  | accumulator
  | relative (b : Byte)
  | indirect (w : Word)
  | data (d : DataOperand)
deriving DecidableEq, Repr

/-- The mode of an addressed byte. -/
def AddrMode.mode : AddrMode → Mode
  | .zpg _ => .zeroPage
  | .zpgX _ => .zeroPageX
  | .zpgY _ => .zeroPageY
  | .abs _ => .absolute
  | .absX _ => .absoluteX
  | .absY _ => .absoluteY
  | .xInd _ => .indirectX
  | .indY _ => .indirectY

/-- The mode of an operand. -/
def Operand.mode : Operand → Mode
  | .implied => .implied
  | .accumulator => .accumulator
  | .relative _ => .relative
  | .indirect _ => .absoluteIndirect
  | .data (.imm _) => .immediate
  | .data (.mem m) => m.mode

/-- The instructions: one constructor per opcode byte (R120), named mnemonic then mode. A byte operand is the
instruction's byte 1. A word operand is its bytes 1 (low) and 2 (high) (R104). -/
inductive Instr where
  /-- LDA, Immediate: opcode $A9 (R140, R107). -/
  | ldaImm (m : Byte)
  /-- LDA, Zero Page: opcode $A5 (R140, R108). -/
  | ldaZpg (z : Byte)
  /-- LDA, Zero Page,X: opcode $B5 (R140, R109). -/
  | ldaZpgX (z : Byte)
  /-- LDA, Absolute: opcode $AD (R140, R111). -/
  | ldaAbs (w : Word)
  /-- LDA, Absolute,X: opcode $BD (R140, R112). -/
  | ldaAbsX (w : Word)
  /-- LDA, Absolute,Y: opcode $B9 (R140, R112). -/
  | ldaAbsY (w : Word)
  /-- LDA, (Indirect,X): opcode $A1 (R140, R115). -/
  | ldaXInd (z : Byte)
  /-- LDA, (Indirect),Y: opcode $B1 (R140, R116). -/
  | ldaIndY (z : Byte)
  /-- LDX, Immediate: opcode $A2 (R141, R107). -/
  | ldxImm (m : Byte)
  /-- LDX, Zero Page: opcode $A6 (R141, R108). -/
  | ldxZpg (z : Byte)
  /-- LDX, Zero Page,Y: opcode $B6 (R141, R110). -/
  | ldxZpgY (z : Byte)
  /-- LDX, Absolute: opcode $AE (R141, R111). -/
  | ldxAbs (w : Word)
  /-- LDX, Absolute,Y: opcode $BE (R141, R112). -/
  | ldxAbsY (w : Word)
  /-- LDY, Immediate: opcode $A0 (R142, R107). -/
  | ldyImm (m : Byte)
  /-- LDY, Zero Page: opcode $A4 (R142, R108). -/
  | ldyZpg (z : Byte)
  /-- LDY, Zero Page,X: opcode $B4 (R142, R109). -/
  | ldyZpgX (z : Byte)
  /-- LDY, Absolute: opcode $AC (R142, R111). -/
  | ldyAbs (w : Word)
  /-- LDY, Absolute,X: opcode $BC (R142, R112). -/
  | ldyAbsX (w : Word)
  /-- STA, Zero Page: opcode $85 (R143, R108). -/
  | staZpg (z : Byte)
  /-- STA, Zero Page,X: opcode $95 (R143, R109). -/
  | staZpgX (z : Byte)
  /-- STA, Absolute: opcode $8D (R143, R111). -/
  | staAbs (w : Word)
  /-- STA, Absolute,X: opcode $9D (R143, R112). -/
  | staAbsX (w : Word)
  /-- STA, Absolute,Y: opcode $99 (R143, R112). -/
  | staAbsY (w : Word)
  /-- STA, (Indirect,X): opcode $81 (R143, R115). -/
  | staXInd (z : Byte)
  /-- STA, (Indirect),Y: opcode $91 (R143, R116). -/
  | staIndY (z : Byte)
  /-- STX, Zero Page: opcode $86 (R144, R108). -/
  | stxZpg (z : Byte)
  /-- STX, Zero Page,Y: opcode $96 (R144, R110). -/
  | stxZpgY (z : Byte)
  /-- STX, Absolute: opcode $8E (R144, R111). -/
  | stxAbs (w : Word)
  /-- STY, Zero Page: opcode $84 (R145, R108). -/
  | styZpg (z : Byte)
  /-- STY, Zero Page,X: opcode $94 (R145, R109). -/
  | styZpgX (z : Byte)
  /-- STY, Absolute: opcode $8C (R145, R111). -/
  | styAbs (w : Word)
  /-- TAX, Implied: opcode $AA (R150, R105). -/
  | tax
  /-- TAY, Implied: opcode $A8 (R151, R105). -/
  | tay
  /-- TXA, Implied: opcode $8A (R152, R105). -/
  | txa
  /-- TYA, Implied: opcode $98 (R153, R105). -/
  | tya
  /-- TSX, Implied: opcode $BA (R154, R105). -/
  | tsx
  /-- TXS, Implied: opcode $9A (R155, R105). -/
  | txs
  /-- PHA, Implied: opcode $48 (R156, R105). -/
  | pha
  /-- PHP, Implied: opcode $08 (R157, R105). -/
  | php
  /-- PLA, Implied: opcode $68 (R158, R105). -/
  | pla
  /-- PLP, Implied: opcode $28 (R159, R105). -/
  | plp
  /-- ADC, Immediate: opcode $69 (R170, R107). -/
  | adcImm (m : Byte)
  /-- ADC, Zero Page: opcode $65 (R170, R108). -/
  | adcZpg (z : Byte)
  /-- ADC, Zero Page,X: opcode $75 (R170, R109). -/
  | adcZpgX (z : Byte)
  /-- ADC, Absolute: opcode $6D (R170, R111). -/
  | adcAbs (w : Word)
  /-- ADC, Absolute,X: opcode $7D (R170, R112). -/
  | adcAbsX (w : Word)
  /-- ADC, Absolute,Y: opcode $79 (R170, R112). -/
  | adcAbsY (w : Word)
  /-- ADC, (Indirect,X): opcode $61 (R170, R115). -/
  | adcXInd (z : Byte)
  /-- ADC, (Indirect),Y: opcode $71 (R170, R116). -/
  | adcIndY (z : Byte)
  /-- SBC, Immediate: opcode $E9 (R171, R107). -/
  | sbcImm (m : Byte)
  /-- SBC, Zero Page: opcode $E5 (R171, R108). -/
  | sbcZpg (z : Byte)
  /-- SBC, Zero Page,X: opcode $F5 (R171, R109). -/
  | sbcZpgX (z : Byte)
  /-- SBC, Absolute: opcode $ED (R171, R111). -/
  | sbcAbs (w : Word)
  /-- SBC, Absolute,X: opcode $FD (R171, R112). -/
  | sbcAbsX (w : Word)
  /-- SBC, Absolute,Y: opcode $F9 (R171, R112). -/
  | sbcAbsY (w : Word)
  /-- SBC, (Indirect,X): opcode $E1 (R171, R115). -/
  | sbcXInd (z : Byte)
  /-- SBC, (Indirect),Y: opcode $F1 (R171, R116). -/
  | sbcIndY (z : Byte)
  /-- INC, Zero Page: opcode $E6 (R174, R108). -/
  | incZpg (z : Byte)
  /-- INC, Zero Page,X: opcode $F6 (R174, R109). -/
  | incZpgX (z : Byte)
  /-- INC, Absolute: opcode $EE (R174, R111). -/
  | incAbs (w : Word)
  /-- INC, Absolute,X: opcode $FE (R174, R112). -/
  | incAbsX (w : Word)
  /-- DEC, Zero Page: opcode $C6 (R175, R108). -/
  | decZpg (z : Byte)
  /-- DEC, Zero Page,X: opcode $D6 (R175, R109). -/
  | decZpgX (z : Byte)
  /-- DEC, Absolute: opcode $CE (R175, R111). -/
  | decAbs (w : Word)
  /-- DEC, Absolute,X: opcode $DE (R175, R112). -/
  | decAbsX (w : Word)
  /-- INX, Implied: opcode $E8 (R176, R105). -/
  | inx
  /-- INY, Implied: opcode $C8 (R177, R105). -/
  | iny
  /-- DEX, Implied: opcode $CA (R178, R105). -/
  | dex
  /-- DEY, Implied: opcode $88 (R179, R105). -/
  | dey
  /-- AND, Immediate: opcode $29 (R190, R107). -/
  | andImm (m : Byte)
  /-- AND, Zero Page: opcode $25 (R190, R108). -/
  | andZpg (z : Byte)
  /-- AND, Zero Page,X: opcode $35 (R190, R109). -/
  | andZpgX (z : Byte)
  /-- AND, Absolute: opcode $2D (R190, R111). -/
  | andAbs (w : Word)
  /-- AND, Absolute,X: opcode $3D (R190, R112). -/
  | andAbsX (w : Word)
  /-- AND, Absolute,Y: opcode $39 (R190, R112). -/
  | andAbsY (w : Word)
  /-- AND, (Indirect,X): opcode $21 (R190, R115). -/
  | andXInd (z : Byte)
  /-- AND, (Indirect),Y: opcode $31 (R190, R116). -/
  | andIndY (z : Byte)
  /-- ORA, Immediate: opcode $09 (R191, R107). -/
  | oraImm (m : Byte)
  /-- ORA, Zero Page: opcode $05 (R191, R108). -/
  | oraZpg (z : Byte)
  /-- ORA, Zero Page,X: opcode $15 (R191, R109). -/
  | oraZpgX (z : Byte)
  /-- ORA, Absolute: opcode $0D (R191, R111). -/
  | oraAbs (w : Word)
  /-- ORA, Absolute,X: opcode $1D (R191, R112). -/
  | oraAbsX (w : Word)
  /-- ORA, Absolute,Y: opcode $19 (R191, R112). -/
  | oraAbsY (w : Word)
  /-- ORA, (Indirect,X): opcode $01 (R191, R115). -/
  | oraXInd (z : Byte)
  /-- ORA, (Indirect),Y: opcode $11 (R191, R116). -/
  | oraIndY (z : Byte)
  /-- EOR, Immediate: opcode $49 (R192, R107). -/
  | eorImm (m : Byte)
  /-- EOR, Zero Page: opcode $45 (R192, R108). -/
  | eorZpg (z : Byte)
  /-- EOR, Zero Page,X: opcode $55 (R192, R109). -/
  | eorZpgX (z : Byte)
  /-- EOR, Absolute: opcode $4D (R192, R111). -/
  | eorAbs (w : Word)
  /-- EOR, Absolute,X: opcode $5D (R192, R112). -/
  | eorAbsX (w : Word)
  /-- EOR, Absolute,Y: opcode $59 (R192, R112). -/
  | eorAbsY (w : Word)
  /-- EOR, (Indirect,X): opcode $41 (R192, R115). -/
  | eorXInd (z : Byte)
  /-- EOR, (Indirect),Y: opcode $51 (R192, R116). -/
  | eorIndY (z : Byte)
  /-- BIT, Zero Page: opcode $24 (R193, R108). -/
  | bitZpg (z : Byte)
  /-- BIT, Absolute: opcode $2C (R193, R111). -/
  | bitAbs (w : Word)
  /-- ASL, Accumulator: opcode $0A (R194, R106). -/
  | aslA
  /-- ASL, Zero Page: opcode $06 (R194, R108). -/
  | aslZpg (z : Byte)
  /-- ASL, Zero Page,X: opcode $16 (R194, R109). -/
  | aslZpgX (z : Byte)
  /-- ASL, Absolute: opcode $0E (R194, R111). -/
  | aslAbs (w : Word)
  /-- ASL, Absolute,X: opcode $1E (R194, R112). -/
  | aslAbsX (w : Word)
  /-- LSR, Accumulator: opcode $4A (R195, R106). -/
  | lsrA
  /-- LSR, Zero Page: opcode $46 (R195, R108). -/
  | lsrZpg (z : Byte)
  /-- LSR, Zero Page,X: opcode $56 (R195, R109). -/
  | lsrZpgX (z : Byte)
  /-- LSR, Absolute: opcode $4E (R195, R111). -/
  | lsrAbs (w : Word)
  /-- LSR, Absolute,X: opcode $5E (R195, R112). -/
  | lsrAbsX (w : Word)
  /-- ROL, Accumulator: opcode $2A (R196, R106). -/
  | rolA
  /-- ROL, Zero Page: opcode $26 (R196, R108). -/
  | rolZpg (z : Byte)
  /-- ROL, Zero Page,X: opcode $36 (R196, R109). -/
  | rolZpgX (z : Byte)
  /-- ROL, Absolute: opcode $2E (R196, R111). -/
  | rolAbs (w : Word)
  /-- ROL, Absolute,X: opcode $3E (R196, R112). -/
  | rolAbsX (w : Word)
  /-- ROR, Accumulator: opcode $6A (R197, R106). -/
  | rorA
  /-- ROR, Zero Page: opcode $66 (R197, R108). -/
  | rorZpg (z : Byte)
  /-- ROR, Zero Page,X: opcode $76 (R197, R109). -/
  | rorZpgX (z : Byte)
  /-- ROR, Absolute: opcode $6E (R197, R111). -/
  | rorAbs (w : Word)
  /-- ROR, Absolute,X: opcode $7E (R197, R112). -/
  | rorAbsX (w : Word)
  /-- CMP, Immediate: opcode $C9 (R210, R107). -/
  | cmpImm (m : Byte)
  /-- CMP, Zero Page: opcode $C5 (R210, R108). -/
  | cmpZpg (z : Byte)
  /-- CMP, Zero Page,X: opcode $D5 (R210, R109). -/
  | cmpZpgX (z : Byte)
  /-- CMP, Absolute: opcode $CD (R210, R111). -/
  | cmpAbs (w : Word)
  /-- CMP, Absolute,X: opcode $DD (R210, R112). -/
  | cmpAbsX (w : Word)
  /-- CMP, Absolute,Y: opcode $D9 (R210, R112). -/
  | cmpAbsY (w : Word)
  /-- CMP, (Indirect,X): opcode $C1 (R210, R115). -/
  | cmpXInd (z : Byte)
  /-- CMP, (Indirect),Y: opcode $D1 (R210, R116). -/
  | cmpIndY (z : Byte)
  /-- CPX, Immediate: opcode $E0 (R211, R107). -/
  | cpxImm (m : Byte)
  /-- CPX, Zero Page: opcode $E4 (R211, R108). -/
  | cpxZpg (z : Byte)
  /-- CPX, Absolute: opcode $EC (R211, R111). -/
  | cpxAbs (w : Word)
  /-- CPY, Immediate: opcode $C0 (R212, R107). -/
  | cpyImm (m : Byte)
  /-- CPY, Zero Page: opcode $C4 (R212, R108). -/
  | cpyZpg (z : Byte)
  /-- CPY, Absolute: opcode $CC (R212, R111). -/
  | cpyAbs (w : Word)
  /-- BCC, Relative: opcode $90 (R214, R114). -/
  | bcc (b : Byte)
  /-- BCS, Relative: opcode $B0 (R215, R114). -/
  | bcs (b : Byte)
  /-- BEQ, Relative: opcode $F0 (R216, R114). -/
  | beq (b : Byte)
  /-- BNE, Relative: opcode $D0 (R217, R114). -/
  | bne (b : Byte)
  /-- BMI, Relative: opcode $30 (R218, R114). -/
  | bmi (b : Byte)
  /-- BPL, Relative: opcode $10 (R219, R114). -/
  | bpl (b : Byte)
  /-- BVC, Relative: opcode $50 (R220, R114). -/
  | bvc (b : Byte)
  /-- BVS, Relative: opcode $70 (R221, R114). -/
  | bvs (b : Byte)
  /-- JMP, Absolute: opcode $4C (R230, R111). -/
  | jmpAbs (w : Word)
  /-- JMP, Absolute Indirect: opcode $6C (R230, R117). -/
  | jmpInd (w : Word)
  /-- JSR, Absolute: opcode $20 (R231, R111). -/
  | jsr (w : Word)
  /-- RTS, Implied: opcode $60 (R232, R105). -/
  | rts
  /-- CLC, Implied: opcode $18 (R240, R105). -/
  | clc
  /-- SEC, Implied: opcode $38 (R241, R105). -/
  | sec
  /-- CLI, Implied: opcode $58 (R242, R105). -/
  | cli
  /-- SEI, Implied: opcode $78 (R243, R105). -/
  | sei
  /-- CLD, Implied: opcode $D8 (R244, R105). -/
  | cld
  /-- SED, Implied: opcode $F8 (R245, R105). -/
  | sed
  /-- CLV, Implied: opcode $B8 (R246, R105). -/
  | clv
  /-- BRK, Implied: opcode $00 (R247, R105). -/
  | brk
  /-- NOP, Implied: opcode $EA (R248, R105). -/
  | nop
  /-- RTI, Implied: opcode $40 (R249, R105). -/
  | rti
deriving DecidableEq, Repr

/-- The mnemonic of an instruction (R120). -/
def Instr.mnemonic : Instr → Mnemonic
  | .ldaImm _ => .lda
  | .ldaZpg _ => .lda
  | .ldaZpgX _ => .lda
  | .ldaAbs _ => .lda
  | .ldaAbsX _ => .lda
  | .ldaAbsY _ => .lda
  | .ldaXInd _ => .lda
  | .ldaIndY _ => .lda
  | .ldxImm _ => .ldx
  | .ldxZpg _ => .ldx
  | .ldxZpgY _ => .ldx
  | .ldxAbs _ => .ldx
  | .ldxAbsY _ => .ldx
  | .ldyImm _ => .ldy
  | .ldyZpg _ => .ldy
  | .ldyZpgX _ => .ldy
  | .ldyAbs _ => .ldy
  | .ldyAbsX _ => .ldy
  | .staZpg _ => .sta
  | .staZpgX _ => .sta
  | .staAbs _ => .sta
  | .staAbsX _ => .sta
  | .staAbsY _ => .sta
  | .staXInd _ => .sta
  | .staIndY _ => .sta
  | .stxZpg _ => .stx
  | .stxZpgY _ => .stx
  | .stxAbs _ => .stx
  | .styZpg _ => .sty
  | .styZpgX _ => .sty
  | .styAbs _ => .sty
  | .tax => .tax
  | .tay => .tay
  | .txa => .txa
  | .tya => .tya
  | .tsx => .tsx
  | .txs => .txs
  | .pha => .pha
  | .php => .php
  | .pla => .pla
  | .plp => .plp
  | .adcImm _ => .adc
  | .adcZpg _ => .adc
  | .adcZpgX _ => .adc
  | .adcAbs _ => .adc
  | .adcAbsX _ => .adc
  | .adcAbsY _ => .adc
  | .adcXInd _ => .adc
  | .adcIndY _ => .adc
  | .sbcImm _ => .sbc
  | .sbcZpg _ => .sbc
  | .sbcZpgX _ => .sbc
  | .sbcAbs _ => .sbc
  | .sbcAbsX _ => .sbc
  | .sbcAbsY _ => .sbc
  | .sbcXInd _ => .sbc
  | .sbcIndY _ => .sbc
  | .incZpg _ => .inc
  | .incZpgX _ => .inc
  | .incAbs _ => .inc
  | .incAbsX _ => .inc
  | .decZpg _ => .dec
  | .decZpgX _ => .dec
  | .decAbs _ => .dec
  | .decAbsX _ => .dec
  | .inx => .inx
  | .iny => .iny
  | .dex => .dex
  | .dey => .dey
  | .andImm _ => .and
  | .andZpg _ => .and
  | .andZpgX _ => .and
  | .andAbs _ => .and
  | .andAbsX _ => .and
  | .andAbsY _ => .and
  | .andXInd _ => .and
  | .andIndY _ => .and
  | .oraImm _ => .ora
  | .oraZpg _ => .ora
  | .oraZpgX _ => .ora
  | .oraAbs _ => .ora
  | .oraAbsX _ => .ora
  | .oraAbsY _ => .ora
  | .oraXInd _ => .ora
  | .oraIndY _ => .ora
  | .eorImm _ => .eor
  | .eorZpg _ => .eor
  | .eorZpgX _ => .eor
  | .eorAbs _ => .eor
  | .eorAbsX _ => .eor
  | .eorAbsY _ => .eor
  | .eorXInd _ => .eor
  | .eorIndY _ => .eor
  | .bitZpg _ => .bit
  | .bitAbs _ => .bit
  | .aslA => .asl
  | .aslZpg _ => .asl
  | .aslZpgX _ => .asl
  | .aslAbs _ => .asl
  | .aslAbsX _ => .asl
  | .lsrA => .lsr
  | .lsrZpg _ => .lsr
  | .lsrZpgX _ => .lsr
  | .lsrAbs _ => .lsr
  | .lsrAbsX _ => .lsr
  | .rolA => .rol
  | .rolZpg _ => .rol
  | .rolZpgX _ => .rol
  | .rolAbs _ => .rol
  | .rolAbsX _ => .rol
  | .rorA => .ror
  | .rorZpg _ => .ror
  | .rorZpgX _ => .ror
  | .rorAbs _ => .ror
  | .rorAbsX _ => .ror
  | .cmpImm _ => .cmp
  | .cmpZpg _ => .cmp
  | .cmpZpgX _ => .cmp
  | .cmpAbs _ => .cmp
  | .cmpAbsX _ => .cmp
  | .cmpAbsY _ => .cmp
  | .cmpXInd _ => .cmp
  | .cmpIndY _ => .cmp
  | .cpxImm _ => .cpx
  | .cpxZpg _ => .cpx
  | .cpxAbs _ => .cpx
  | .cpyImm _ => .cpy
  | .cpyZpg _ => .cpy
  | .cpyAbs _ => .cpy
  | .bcc _ => .bcc
  | .bcs _ => .bcs
  | .beq _ => .beq
  | .bne _ => .bne
  | .bmi _ => .bmi
  | .bpl _ => .bpl
  | .bvc _ => .bvc
  | .bvs _ => .bvs
  | .jmpAbs _ => .jmp
  | .jmpInd _ => .jmp
  | .jsr _ => .jsr
  | .rts => .rts
  | .clc => .clc
  | .sec => .sec
  | .cli => .cli
  | .sei => .sei
  | .cld => .cld
  | .sed => .sed
  | .clv => .clv
  | .brk => .brk
  | .nop => .nop
  | .rti => .rti

/-- The operand of an instruction, with its addressing mode (R120). -/
def Instr.operand : Instr → Operand
  | .ldaImm m => .data (.imm m)
  | .ldaZpg z => .data (.mem (.zpg z))
  | .ldaZpgX z => .data (.mem (.zpgX z))
  | .ldaAbs w => .data (.mem (.abs w))
  | .ldaAbsX w => .data (.mem (.absX w))
  | .ldaAbsY w => .data (.mem (.absY w))
  | .ldaXInd z => .data (.mem (.xInd z))
  | .ldaIndY z => .data (.mem (.indY z))
  | .ldxImm m => .data (.imm m)
  | .ldxZpg z => .data (.mem (.zpg z))
  | .ldxZpgY z => .data (.mem (.zpgY z))
  | .ldxAbs w => .data (.mem (.abs w))
  | .ldxAbsY w => .data (.mem (.absY w))
  | .ldyImm m => .data (.imm m)
  | .ldyZpg z => .data (.mem (.zpg z))
  | .ldyZpgX z => .data (.mem (.zpgX z))
  | .ldyAbs w => .data (.mem (.abs w))
  | .ldyAbsX w => .data (.mem (.absX w))
  | .staZpg z => .data (.mem (.zpg z))
  | .staZpgX z => .data (.mem (.zpgX z))
  | .staAbs w => .data (.mem (.abs w))
  | .staAbsX w => .data (.mem (.absX w))
  | .staAbsY w => .data (.mem (.absY w))
  | .staXInd z => .data (.mem (.xInd z))
  | .staIndY z => .data (.mem (.indY z))
  | .stxZpg z => .data (.mem (.zpg z))
  | .stxZpgY z => .data (.mem (.zpgY z))
  | .stxAbs w => .data (.mem (.abs w))
  | .styZpg z => .data (.mem (.zpg z))
  | .styZpgX z => .data (.mem (.zpgX z))
  | .styAbs w => .data (.mem (.abs w))
  | .tax => .implied
  | .tay => .implied
  | .txa => .implied
  | .tya => .implied
  | .tsx => .implied
  | .txs => .implied
  | .pha => .implied
  | .php => .implied
  | .pla => .implied
  | .plp => .implied
  | .adcImm m => .data (.imm m)
  | .adcZpg z => .data (.mem (.zpg z))
  | .adcZpgX z => .data (.mem (.zpgX z))
  | .adcAbs w => .data (.mem (.abs w))
  | .adcAbsX w => .data (.mem (.absX w))
  | .adcAbsY w => .data (.mem (.absY w))
  | .adcXInd z => .data (.mem (.xInd z))
  | .adcIndY z => .data (.mem (.indY z))
  | .sbcImm m => .data (.imm m)
  | .sbcZpg z => .data (.mem (.zpg z))
  | .sbcZpgX z => .data (.mem (.zpgX z))
  | .sbcAbs w => .data (.mem (.abs w))
  | .sbcAbsX w => .data (.mem (.absX w))
  | .sbcAbsY w => .data (.mem (.absY w))
  | .sbcXInd z => .data (.mem (.xInd z))
  | .sbcIndY z => .data (.mem (.indY z))
  | .incZpg z => .data (.mem (.zpg z))
  | .incZpgX z => .data (.mem (.zpgX z))
  | .incAbs w => .data (.mem (.abs w))
  | .incAbsX w => .data (.mem (.absX w))
  | .decZpg z => .data (.mem (.zpg z))
  | .decZpgX z => .data (.mem (.zpgX z))
  | .decAbs w => .data (.mem (.abs w))
  | .decAbsX w => .data (.mem (.absX w))
  | .inx => .implied
  | .iny => .implied
  | .dex => .implied
  | .dey => .implied
  | .andImm m => .data (.imm m)
  | .andZpg z => .data (.mem (.zpg z))
  | .andZpgX z => .data (.mem (.zpgX z))
  | .andAbs w => .data (.mem (.abs w))
  | .andAbsX w => .data (.mem (.absX w))
  | .andAbsY w => .data (.mem (.absY w))
  | .andXInd z => .data (.mem (.xInd z))
  | .andIndY z => .data (.mem (.indY z))
  | .oraImm m => .data (.imm m)
  | .oraZpg z => .data (.mem (.zpg z))
  | .oraZpgX z => .data (.mem (.zpgX z))
  | .oraAbs w => .data (.mem (.abs w))
  | .oraAbsX w => .data (.mem (.absX w))
  | .oraAbsY w => .data (.mem (.absY w))
  | .oraXInd z => .data (.mem (.xInd z))
  | .oraIndY z => .data (.mem (.indY z))
  | .eorImm m => .data (.imm m)
  | .eorZpg z => .data (.mem (.zpg z))
  | .eorZpgX z => .data (.mem (.zpgX z))
  | .eorAbs w => .data (.mem (.abs w))
  | .eorAbsX w => .data (.mem (.absX w))
  | .eorAbsY w => .data (.mem (.absY w))
  | .eorXInd z => .data (.mem (.xInd z))
  | .eorIndY z => .data (.mem (.indY z))
  | .bitZpg z => .data (.mem (.zpg z))
  | .bitAbs w => .data (.mem (.abs w))
  | .aslA => .accumulator
  | .aslZpg z => .data (.mem (.zpg z))
  | .aslZpgX z => .data (.mem (.zpgX z))
  | .aslAbs w => .data (.mem (.abs w))
  | .aslAbsX w => .data (.mem (.absX w))
  | .lsrA => .accumulator
  | .lsrZpg z => .data (.mem (.zpg z))
  | .lsrZpgX z => .data (.mem (.zpgX z))
  | .lsrAbs w => .data (.mem (.abs w))
  | .lsrAbsX w => .data (.mem (.absX w))
  | .rolA => .accumulator
  | .rolZpg z => .data (.mem (.zpg z))
  | .rolZpgX z => .data (.mem (.zpgX z))
  | .rolAbs w => .data (.mem (.abs w))
  | .rolAbsX w => .data (.mem (.absX w))
  | .rorA => .accumulator
  | .rorZpg z => .data (.mem (.zpg z))
  | .rorZpgX z => .data (.mem (.zpgX z))
  | .rorAbs w => .data (.mem (.abs w))
  | .rorAbsX w => .data (.mem (.absX w))
  | .cmpImm m => .data (.imm m)
  | .cmpZpg z => .data (.mem (.zpg z))
  | .cmpZpgX z => .data (.mem (.zpgX z))
  | .cmpAbs w => .data (.mem (.abs w))
  | .cmpAbsX w => .data (.mem (.absX w))
  | .cmpAbsY w => .data (.mem (.absY w))
  | .cmpXInd z => .data (.mem (.xInd z))
  | .cmpIndY z => .data (.mem (.indY z))
  | .cpxImm m => .data (.imm m)
  | .cpxZpg z => .data (.mem (.zpg z))
  | .cpxAbs w => .data (.mem (.abs w))
  | .cpyImm m => .data (.imm m)
  | .cpyZpg z => .data (.mem (.zpg z))
  | .cpyAbs w => .data (.mem (.abs w))
  | .bcc b => .relative b
  | .bcs b => .relative b
  | .beq b => .relative b
  | .bne b => .relative b
  | .bmi b => .relative b
  | .bpl b => .relative b
  | .bvc b => .relative b
  | .bvs b => .relative b
  | .jmpAbs w => .data (.mem (.abs w))
  | .jmpInd w => .indirect w
  | .jsr w => .data (.mem (.abs w))
  | .rts => .implied
  | .clc => .implied
  | .sec => .implied
  | .cli => .implied
  | .sei => .implied
  | .cld => .implied
  | .sed => .implied
  | .clv => .implied
  | .brk => .implied
  | .nop => .implied
  | .rti => .implied

/-- The addressing mode of an instruction. -/
def Instr.mode (i : Instr) : Mode :=
  i.operand.mode

end Sys2Proof
end

