-- ==== Sys2Proof/WellFormed.lean ====
section
/-! DEFINITION. Which instructions exist (R118) and which operand values fit an addressing mode (R104, R114, R127).
The operands of an `Instr` have the width of their field in their type, so nothing about a width is left to check there.
What an assembler checks is stated on a source form: a mnemonic, a mode and an operand of any size. -/

namespace Sys2Proof

/-- The length in bytes of an instruction in a mode (R102). -/
def Mode.length : Mode → Nat
  | .implied | .accumulator => 1
  | .immediate | .zeroPage | .zeroPageX | .zeroPageY | .relative | .indirectX | .indirectY => 2
  | .absolute | .absoluteX | .absoluteY | .absoluteIndirect => 3

/-- The operand values a mode can encode: none, a byte, a signed byte for Relative, or a word (R104, R114). -/
def Mode.fits (m : Mode) (v : Int) : Bool :=
  match m with
  | .implied | .accumulator => v == 0
  | .immediate | .zeroPage | .zeroPageX | .zeroPageY | .indirectX | .indirectY => 0 ≤ v && v < 256
  | .relative => -128 ≤ v && v ≤ 127
  | .absolute | .absoluteX | .absoluteY | .absoluteIndirect => 0 ≤ v && v < 65536

/-- The modes a mnemonic has: exactly the cells of R120 (R118). -/
def Mnemonic.modes : Mnemonic → List Mode
  | .lda | .adc | .sbc | .and | .ora | .eor | .cmp =>
    [.immediate, .zeroPage, .zeroPageX, .absolute, .absoluteX, .absoluteY, .indirectX, .indirectY]
  | .ldx =>
    [.immediate, .zeroPage, .zeroPageY, .absolute, .absoluteY]
  | .ldy =>
    [.immediate, .zeroPage, .zeroPageX, .absolute, .absoluteX]
  | .sta =>
    [.zeroPage, .zeroPageX, .absolute, .absoluteX, .absoluteY, .indirectX, .indirectY]
  | .stx =>
    [.zeroPage, .zeroPageY, .absolute]
  | .sty =>
    [.zeroPage, .zeroPageX, .absolute]
  | .tax | .tay | .txa | .tya | .tsx | .txs | .pha | .php | .pla | .plp | .inx | .iny | .dex | .dey | .rts |
  .clc | .sec | .cli | .sei | .cld | .sed | .clv | .brk | .nop | .rti =>
    [.implied]
  | .inc | .dec =>
    [.zeroPage, .zeroPageX, .absolute, .absoluteX]
  | .bit =>
    [.zeroPage, .absolute]
  | .asl | .lsr | .rol | .ror =>
    [.accumulator, .zeroPage, .zeroPageX, .absolute, .absoluteX]
  | .cpx | .cpy =>
    [.immediate, .zeroPage, .absolute]
  | .bcc | .bcs | .beq | .bne | .bmi | .bpl | .bvc | .bvs =>
    [.relative]
  | .jmp =>
    [.absolute, .absoluteIndirect]
  | .jsr =>
    [.absolute]

/-- An instruction as assembler text gives it (R127): its parts, with the operand of any size. For Relative mode the
operand is the offset counted from the byte after the instruction (R114). -/
structure SourceForm where
  mnemonic : Mnemonic
  mode : Mode
  operand : Int
deriving DecidableEq, Repr

/-- What an assembler must check (R118, R114): the mnemonic has the mode, and the operand fits it. -/
def SourceForm.wellFormed (f : SourceForm) : Bool :=
  f.mnemonic.modes.contains f.mode && f.mode.fits f.operand

/-- The number an operand stands for in assembler text: unsigned, but for the signed offset of a branch (R104). -/
def Operand.value : Operand → Int
  | .implied | .accumulator => 0
  | .relative b => b.toInt
  | .indirect w => w.toNat
  | .data (.imm m) => m.toNat
  | .data (.mem (.zpg z)) | .data (.mem (.zpgX z)) | .data (.mem (.zpgY z)) => z.toNat
  | .data (.mem (.abs w)) | .data (.mem (.absX w)) | .data (.mem (.absY w)) => w.toNat
  | .data (.mem (.xInd z)) | .data (.mem (.indY z)) => z.toNat

/-- The source form of an instruction. -/
def Instr.source (i : Instr) : SourceForm :=
  { mnemonic := i.mnemonic, mode := i.mode, operand := i.operand.value }

/-- An instruction is well formed if its source form passes the assembler's checks. -/
abbrev Instr.WellFormed (i : Instr) : Prop :=
  i.source.wellFormed = true

end Sys2Proof
end

