-- ==== Sys2Proof/Decode.lean ====
section
/-! DEFINITION. The decoder (R100 to R104, R119) and the encoder (R120). The opcode byte alone selects operation, mode and
length; decoding is a lookup on it followed by the assembly of the operand bytes. -/

namespace Sys2Proof

open Sys2Proof.Machine (mkWord lowByte highByte)

/-- Why bytes decode to nothing. -/
inductive DecodeError where
  /-- The opcode byte is one of the 105 undocumented ones (R125, D6). -/
  | undocumented (op : Byte)
  /-- The list ends before the instruction does. -/
  | truncated
deriving DecidableEq, Repr

/-- What an opcode byte selects: an instruction that still wants the operand bytes of its format F1, F2 or F3 (R102). -/
inductive Template where
  | bare (i : Instr)
  | withByte (f : Byte → Instr)
  | withWord (f : Word → Instr)

/-- How many operand bytes follow the opcode (R102). -/
def Template.operandBytes : Template → Nat
  | .bare _ => 0
  | .withByte _ => 1
  | .withWord _ => 2

/-- The opcode map (R119): a total function from a byte to what it selects, or nothing for an undocumented byte. -/
def decodeOpcode (op : Byte) : Option Template :=
  match op.toNat with
  | 0x00 => some (.bare .brk)
  | 0x01 => some (.withByte .oraXInd)
  | 0x05 => some (.withByte .oraZpg)
  | 0x06 => some (.withByte .aslZpg)
  | 0x08 => some (.bare .php)
  | 0x09 => some (.withByte .oraImm)
  | 0x0A => some (.bare .aslA)
  | 0x0D => some (.withWord .oraAbs)
  | 0x0E => some (.withWord .aslAbs)
  | 0x10 => some (.withByte .bpl)
  | 0x11 => some (.withByte .oraIndY)
  | 0x15 => some (.withByte .oraZpgX)
  | 0x16 => some (.withByte .aslZpgX)
  | 0x18 => some (.bare .clc)
  | 0x19 => some (.withWord .oraAbsY)
  | 0x1D => some (.withWord .oraAbsX)
  | 0x1E => some (.withWord .aslAbsX)
  | 0x20 => some (.withWord .jsr)
  | 0x21 => some (.withByte .andXInd)
  | 0x24 => some (.withByte .bitZpg)
  | 0x25 => some (.withByte .andZpg)
  | 0x26 => some (.withByte .rolZpg)
  | 0x28 => some (.bare .plp)
  | 0x29 => some (.withByte .andImm)
  | 0x2A => some (.bare .rolA)
  | 0x2C => some (.withWord .bitAbs)
  | 0x2D => some (.withWord .andAbs)
  | 0x2E => some (.withWord .rolAbs)
  | 0x30 => some (.withByte .bmi)
  | 0x31 => some (.withByte .andIndY)
  | 0x35 => some (.withByte .andZpgX)
  | 0x36 => some (.withByte .rolZpgX)
  | 0x38 => some (.bare .sec)
  | 0x39 => some (.withWord .andAbsY)
  | 0x3D => some (.withWord .andAbsX)
  | 0x3E => some (.withWord .rolAbsX)
  | 0x40 => some (.bare .rti)
  | 0x41 => some (.withByte .eorXInd)
  | 0x45 => some (.withByte .eorZpg)
  | 0x46 => some (.withByte .lsrZpg)
  | 0x48 => some (.bare .pha)
  | 0x49 => some (.withByte .eorImm)
  | 0x4A => some (.bare .lsrA)
  | 0x4C => some (.withWord .jmpAbs)
  | 0x4D => some (.withWord .eorAbs)
  | 0x4E => some (.withWord .lsrAbs)
  | 0x50 => some (.withByte .bvc)
  | 0x51 => some (.withByte .eorIndY)
  | 0x55 => some (.withByte .eorZpgX)
  | 0x56 => some (.withByte .lsrZpgX)
  | 0x58 => some (.bare .cli)
  | 0x59 => some (.withWord .eorAbsY)
  | 0x5D => some (.withWord .eorAbsX)
  | 0x5E => some (.withWord .lsrAbsX)
  | 0x60 => some (.bare .rts)
  | 0x61 => some (.withByte .adcXInd)
  | 0x65 => some (.withByte .adcZpg)
  | 0x66 => some (.withByte .rorZpg)
  | 0x68 => some (.bare .pla)
  | 0x69 => some (.withByte .adcImm)
  | 0x6A => some (.bare .rorA)
  | 0x6C => some (.withWord .jmpInd)
  | 0x6D => some (.withWord .adcAbs)
  | 0x6E => some (.withWord .rorAbs)
  | 0x70 => some (.withByte .bvs)
  | 0x71 => some (.withByte .adcIndY)
  | 0x75 => some (.withByte .adcZpgX)
  | 0x76 => some (.withByte .rorZpgX)
  | 0x78 => some (.bare .sei)
  | 0x79 => some (.withWord .adcAbsY)
  | 0x7D => some (.withWord .adcAbsX)
  | 0x7E => some (.withWord .rorAbsX)
  | 0x81 => some (.withByte .staXInd)
  | 0x84 => some (.withByte .styZpg)
  | 0x85 => some (.withByte .staZpg)
  | 0x86 => some (.withByte .stxZpg)
  | 0x88 => some (.bare .dey)
  | 0x8A => some (.bare .txa)
  | 0x8C => some (.withWord .styAbs)
  | 0x8D => some (.withWord .staAbs)
  | 0x8E => some (.withWord .stxAbs)
  | 0x90 => some (.withByte .bcc)
  | 0x91 => some (.withByte .staIndY)
  | 0x94 => some (.withByte .styZpgX)
  | 0x95 => some (.withByte .staZpgX)
  | 0x96 => some (.withByte .stxZpgY)
  | 0x98 => some (.bare .tya)
  | 0x99 => some (.withWord .staAbsY)
  | 0x9A => some (.bare .txs)
  | 0x9D => some (.withWord .staAbsX)
  | 0xA0 => some (.withByte .ldyImm)
  | 0xA1 => some (.withByte .ldaXInd)
  | 0xA2 => some (.withByte .ldxImm)
  | 0xA4 => some (.withByte .ldyZpg)
  | 0xA5 => some (.withByte .ldaZpg)
  | 0xA6 => some (.withByte .ldxZpg)
  | 0xA8 => some (.bare .tay)
  | 0xA9 => some (.withByte .ldaImm)
  | 0xAA => some (.bare .tax)
  | 0xAC => some (.withWord .ldyAbs)
  | 0xAD => some (.withWord .ldaAbs)
  | 0xAE => some (.withWord .ldxAbs)
  | 0xB0 => some (.withByte .bcs)
  | 0xB1 => some (.withByte .ldaIndY)
  | 0xB4 => some (.withByte .ldyZpgX)
  | 0xB5 => some (.withByte .ldaZpgX)
  | 0xB6 => some (.withByte .ldxZpgY)
  | 0xB8 => some (.bare .clv)
  | 0xB9 => some (.withWord .ldaAbsY)
  | 0xBA => some (.bare .tsx)
  | 0xBC => some (.withWord .ldyAbsX)
  | 0xBD => some (.withWord .ldaAbsX)
  | 0xBE => some (.withWord .ldxAbsY)
  | 0xC0 => some (.withByte .cpyImm)
  | 0xC1 => some (.withByte .cmpXInd)
  | 0xC4 => some (.withByte .cpyZpg)
  | 0xC5 => some (.withByte .cmpZpg)
  | 0xC6 => some (.withByte .decZpg)
  | 0xC8 => some (.bare .iny)
  | 0xC9 => some (.withByte .cmpImm)
  | 0xCA => some (.bare .dex)
  | 0xCC => some (.withWord .cpyAbs)
  | 0xCD => some (.withWord .cmpAbs)
  | 0xCE => some (.withWord .decAbs)
  | 0xD0 => some (.withByte .bne)
  | 0xD1 => some (.withByte .cmpIndY)
  | 0xD5 => some (.withByte .cmpZpgX)
  | 0xD6 => some (.withByte .decZpgX)
  | 0xD8 => some (.bare .cld)
  | 0xD9 => some (.withWord .cmpAbsY)
  | 0xDD => some (.withWord .cmpAbsX)
  | 0xDE => some (.withWord .decAbsX)
  | 0xE0 => some (.withByte .cpxImm)
  | 0xE1 => some (.withByte .sbcXInd)
  | 0xE4 => some (.withByte .cpxZpg)
  | 0xE5 => some (.withByte .sbcZpg)
  | 0xE6 => some (.withByte .incZpg)
  | 0xE8 => some (.bare .inx)
  | 0xE9 => some (.withByte .sbcImm)
  | 0xEA => some (.bare .nop)
  | 0xEC => some (.withWord .cpxAbs)
  | 0xED => some (.withWord .sbcAbs)
  | 0xEE => some (.withWord .incAbs)
  | 0xF0 => some (.withByte .beq)
  | 0xF1 => some (.withByte .sbcIndY)
  | 0xF5 => some (.withByte .sbcZpgX)
  | 0xF6 => some (.withByte .incZpgX)
  | 0xF8 => some (.bare .sed)
  | 0xF9 => some (.withWord .sbcAbsY)
  | 0xFD => some (.withWord .sbcAbsX)
  | 0xFE => some (.withWord .incAbsX)
  | _ => none

/-- Decode the instruction at the head of a list of bytes, and give the rest of the list (R102, R104: byte 1 is the low
byte of a word operand and byte 2 the high byte). -/
def decode : List Byte → Except DecodeError (Instr × List Byte)
  | [] => .error .truncated
  | op :: rest =>
    match decodeOpcode op, rest with
    | none, _ => .error (.undocumented op)
    | some (.bare i), rest => .ok (i, rest)
    | some (.withByte f), b1 :: rest => .ok (f b1, rest)
    | some (.withWord f), b1 :: b2 :: rest => .ok (f (mkWord b2 b1), rest)
    | some _, _ => .error .truncated

/-- The opcode byte of an instruction (R120). -/
def opcodeOf : Instr → Byte
  | .ldaImm _ => 0xA9
  | .ldaZpg _ => 0xA5
  | .ldaZpgX _ => 0xB5
  | .ldaAbs _ => 0xAD
  | .ldaAbsX _ => 0xBD
  | .ldaAbsY _ => 0xB9
  | .ldaXInd _ => 0xA1
  | .ldaIndY _ => 0xB1
  | .ldxImm _ => 0xA2
  | .ldxZpg _ => 0xA6
  | .ldxZpgY _ => 0xB6
  | .ldxAbs _ => 0xAE
  | .ldxAbsY _ => 0xBE
  | .ldyImm _ => 0xA0
  | .ldyZpg _ => 0xA4
  | .ldyZpgX _ => 0xB4
  | .ldyAbs _ => 0xAC
  | .ldyAbsX _ => 0xBC
  | .staZpg _ => 0x85
  | .staZpgX _ => 0x95
  | .staAbs _ => 0x8D
  | .staAbsX _ => 0x9D
  | .staAbsY _ => 0x99
  | .staXInd _ => 0x81
  | .staIndY _ => 0x91
  | .stxZpg _ => 0x86
  | .stxZpgY _ => 0x96
  | .stxAbs _ => 0x8E
  | .styZpg _ => 0x84
  | .styZpgX _ => 0x94
  | .styAbs _ => 0x8C
  | .tax => 0xAA
  | .tay => 0xA8
  | .txa => 0x8A
  | .tya => 0x98
  | .tsx => 0xBA
  | .txs => 0x9A
  | .pha => 0x48
  | .php => 0x08
  | .pla => 0x68
  | .plp => 0x28
  | .adcImm _ => 0x69
  | .adcZpg _ => 0x65
  | .adcZpgX _ => 0x75
  | .adcAbs _ => 0x6D
  | .adcAbsX _ => 0x7D
  | .adcAbsY _ => 0x79
  | .adcXInd _ => 0x61
  | .adcIndY _ => 0x71
  | .sbcImm _ => 0xE9
  | .sbcZpg _ => 0xE5
  | .sbcZpgX _ => 0xF5
  | .sbcAbs _ => 0xED
  | .sbcAbsX _ => 0xFD
  | .sbcAbsY _ => 0xF9
  | .sbcXInd _ => 0xE1
  | .sbcIndY _ => 0xF1
  | .incZpg _ => 0xE6
  | .incZpgX _ => 0xF6
  | .incAbs _ => 0xEE
  | .incAbsX _ => 0xFE
  | .decZpg _ => 0xC6
  | .decZpgX _ => 0xD6
  | .decAbs _ => 0xCE
  | .decAbsX _ => 0xDE
  | .inx => 0xE8
  | .iny => 0xC8
  | .dex => 0xCA
  | .dey => 0x88
  | .andImm _ => 0x29
  | .andZpg _ => 0x25
  | .andZpgX _ => 0x35
  | .andAbs _ => 0x2D
  | .andAbsX _ => 0x3D
  | .andAbsY _ => 0x39
  | .andXInd _ => 0x21
  | .andIndY _ => 0x31
  | .oraImm _ => 0x09
  | .oraZpg _ => 0x05
  | .oraZpgX _ => 0x15
  | .oraAbs _ => 0x0D
  | .oraAbsX _ => 0x1D
  | .oraAbsY _ => 0x19
  | .oraXInd _ => 0x01
  | .oraIndY _ => 0x11
  | .eorImm _ => 0x49
  | .eorZpg _ => 0x45
  | .eorZpgX _ => 0x55
  | .eorAbs _ => 0x4D
  | .eorAbsX _ => 0x5D
  | .eorAbsY _ => 0x59
  | .eorXInd _ => 0x41
  | .eorIndY _ => 0x51
  | .bitZpg _ => 0x24
  | .bitAbs _ => 0x2C
  | .aslA => 0x0A
  | .aslZpg _ => 0x06
  | .aslZpgX _ => 0x16
  | .aslAbs _ => 0x0E
  | .aslAbsX _ => 0x1E
  | .lsrA => 0x4A
  | .lsrZpg _ => 0x46
  | .lsrZpgX _ => 0x56
  | .lsrAbs _ => 0x4E
  | .lsrAbsX _ => 0x5E
  | .rolA => 0x2A
  | .rolZpg _ => 0x26
  | .rolZpgX _ => 0x36
  | .rolAbs _ => 0x2E
  | .rolAbsX _ => 0x3E
  | .rorA => 0x6A
  | .rorZpg _ => 0x66
  | .rorZpgX _ => 0x76
  | .rorAbs _ => 0x6E
  | .rorAbsX _ => 0x7E
  | .cmpImm _ => 0xC9
  | .cmpZpg _ => 0xC5
  | .cmpZpgX _ => 0xD5
  | .cmpAbs _ => 0xCD
  | .cmpAbsX _ => 0xDD
  | .cmpAbsY _ => 0xD9
  | .cmpXInd _ => 0xC1
  | .cmpIndY _ => 0xD1
  | .cpxImm _ => 0xE0
  | .cpxZpg _ => 0xE4
  | .cpxAbs _ => 0xEC
  | .cpyImm _ => 0xC0
  | .cpyZpg _ => 0xC4
  | .cpyAbs _ => 0xCC
  | .bcc _ => 0x90
  | .bcs _ => 0xB0
  | .beq _ => 0xF0
  | .bne _ => 0xD0
  | .bmi _ => 0x30
  | .bpl _ => 0x10
  | .bvc _ => 0x50
  | .bvs _ => 0x70
  | .jmpAbs _ => 0x4C
  | .jmpInd _ => 0x6C
  | .jsr _ => 0x20
  | .rts => 0x60
  | .clc => 0x18
  | .sec => 0x38
  | .cli => 0x58
  | .sei => 0x78
  | .cld => 0xD8
  | .sed => 0xF8
  | .clv => 0xB8
  | .brk => 0x00
  | .nop => 0xEA
  | .rti => 0x40

/-- The operand bytes of an operand, low byte first (R102, R104). -/
def operandBytesOf : Operand → List Byte
  | .implied | .accumulator => []
  | .relative b => [b]
  | .indirect w => [lowByte w, highByte w]
  | .data (.imm m) => [m]
  | .data (.mem (.zpg z)) | .data (.mem (.zpgX z)) | .data (.mem (.zpgY z)) => [z]
  | .data (.mem (.abs w)) | .data (.mem (.absX w)) | .data (.mem (.absY w)) => [lowByte w, highByte w]
  | .data (.mem (.xInd z)) | .data (.mem (.indY z)) => [z]

/-- The bytes of an instruction, in ascending address order (R102). -/
def encode (i : Instr) : List Byte :=
  opcodeOf i :: operandBytesOf i.operand

/-- The first three bytes of a word that numbers an instruction's bits from the first byte's bit 0, with every bit above
`nbits` zero. -/
def tableBytes (nbits w : Nat) : List Byte :=
  let v := w % 2 ^ nbits
  [BitVec.ofNat 8 v, BitVec.ofNat 8 (v / 256), BitVec.ofNat 8 (v / 65536)]

/-- The instruction the decoder reads from a table word. -/
def decodeTableWord (nbits w : Nat) : Option Instr :=
  match decode (tableBytes nbits w) with
  | .ok (i, _) => some i
  | .error _ => none

end Sys2Proof
end

