-- ==== Sys2Proof/Config.lean ====
section
/-! DEFINITION. What an implementation fixes and the spec leaves open (R5, 92_eei_decisions.md), and the supply of free
values. Every constant here is without a body: no proof can find a value of it, so a claim holds for every value. -/

namespace Sys2Proof

/-- The three open Boolean parameters of the interrupt logic (R5). `step` runs under `Config.params`; the functions
below it take them as an argument, so that a claim can range over all eight settings. -/
structure Params where
  /-- `NMI_SETS_I`: whether NMI entry sets the I flag (R274, D7; the spec's documented value is false). -/
  nmiSetsI : Bool
  /-- `IRQ_MASK_LATENCY` = 1: the boundary after CLI, SEI or PLP still uses the old I (R272, D19). -/
  irqMaskLatency : Bool
  /-- `ENTRY_IS_BOUNDARY`: whether interrupts are examined between an entry sequence and the first handler
  instruction (R271, D20). -/
  entryIsBoundary : Bool
deriving DecidableEq, Repr, Inhabited

namespace Config

/-- The setting of the open Boolean parameters, fixed for the machine (R5). -/
opaque params : Params

/-- `RESET_SP`: SP after the reset sequence (R46, D4). -/
opaque resetSp : Byte

/-- `RESET_DDR`: the data direction register after the reset sequence (R47, D5). -/
opaque resetDdr : Byte

/-- `RESET_POR`: the port's output latch after the reset sequence (R47, D5). -/
opaque resetPor : Byte

/-- The supply of free values (`draw` of R8): applied to the counter `draws` of State, which advances with each use. -/
opaque freeByte : Nat → Byte

end Config

end Sys2Proof
end

