-- ==== Sys2Proof/Machine/State.lean ====
section
/-! DEFINITION. The state of the machine: every piece of state the spec gives the 6510 (10_state.md section 1), the
environment's inputs as lists (00_scope.md section 4), and the model's own bookkeeping. Plain data throughout. -/

namespace Sys2Proof.Machine

/-- The 6510 has no fault: no instruction can fail to complete and there is no vector for one (R262). Nobody raises a
fault, so the type has no constructor (safe). -/
inductive Fault where
deriving DecidableEq, Repr

/-- Why the model gives no meaning to what comes next. -/
inductive Refusal where
  /-- Raised by `exec` for an instruction without a meaning (safe: the model stops). -/
  | notModelled (mnemonic : String)
  /-- Raised at the fetch of one of the 105 undocumented opcode bytes (R125, D6; safe: the model stops where the chip
  does something the spec does not name). -/
  | undocumentedOpcode (op : Byte)
  /-- Raised when RES is released after fewer than two clock cycles (R300, D23; safe: the spec has a model refuse such
  an input). -/
  | resetPulseTooShort
  /-- Raised when AEC takes the buses from an access of the processor that RDY has not halted (R288, U17; safe: the spec
  has a model refuse such an input). -/
  | busTakenDuringAccess
deriving DecidableEq, Repr

/-- The six stored flags of P (R27). Bits 5 and 4 have no storage (R31, R32). -/
structure Status where
  n : Bool
  v : Bool
  d : Bool
  i : Bool
  z : Bool
  c : Bool
deriving DecidableEq, Repr

/-- What answers at an address of the external bus (R61, R62, D1). -/
inductive BusKind where
  /-- A byte array: a read gives the byte last written. -/
  | ram
  /-- A read gives the byte held; a write stores nothing ("ROM never writes"). -/
  | rom
  /-- A device register, or memory another bus master may write: a read gives a free value, a write leaves no trace
  here. -/
  | device
deriving DecidableEq, Repr

/-- A range of `size` addresses from `base` and what answers there. -/
structure Window where
  base : Nat
  size : Nat
  kind : BusKind
deriving DecidableEq, Repr

/-- Memory: (address, byte) pairs, addresses strictly rising, none listed that holds what an unlisted one reads as. -/
abbrev Memory := List Host.Cell

/-- Whether a bus access reads or writes: the R/W line (R286). -/
inductive AccessKind where
  | read
  | write
deriving DecidableEq, Repr

/-- One access of the processor: `MemRead(addr, 1)` that gave `val`, or `MemWrite(addr, 1, val)` (R61, R62, R66). -/
structure Access where
  kind : AccessKind
  addr : Word
  val : Byte
deriving DecidableEq, Repr

/-- The environment's input lines at one instruction boundary and during the step that starts there (D3). -/
structure Lines where
  /-- IRQ is low at the boundary (R40). -/
  irqLow : Bool := false
  /-- NMI is low at the boundary, or at the release of RES (R39, R300). -/
  nmiLow : Bool := false
  /-- NMI made a high-to-low transition since the last boundary that the two sampled levels do not show: it fell and
  rose again, or rose and fell again (R39, R271). -/
  nmiFell : Bool := false
  /-- For how many clock cycles RES is low in this step; 0 when it is high (R300). -/
  resLow : Nat := 0
  /-- When RES falls during the step: how many accesses of the abandoned action were performed before it; 0 also when it
  falls at the boundary (R279). -/
  resAfter : Nat := 0
  /-- For how many clock cycles RDY halts the processor in this step, whatever the step does, besides those `resLow`
  counts (R287, R324). -/
  rdyHeld : Nat := 0
  /-- AEC takes the buses during an access of this step that RDY has not halted (R288, U17). -/
  aecTakesBus : Bool := false
deriving DecidableEq, Repr

/-- The machine. -/
structure State where
  /-- Accumulator (R20). -/
  a : Byte
  /-- X index register (R21). -/
  x : Byte
  /-- Y index register (R22). -/
  y : Byte
  /-- Stack pointer (R23). -/
  sp : Byte
  /-- Program counter (R25). -/
  pc : Word
  /-- Processor status, six flags (R27). -/
  p : Status
  /-- Data direction register, at $0000 (R35). -/
  ddr : Byte
  /-- Output latch of the port, at $0001 (R36). -/
  por : Byte
  /-- An NMI edge waits to be taken (R39). -/
  nmiPending : Bool
  /-- The last sampled level of the NMI line, true for high (R39). -/
  nmiPrev : Bool
  /-- The I flag from before the CLI, SEI or PLP that has just run (R272); none after anything else. -/
  iDelayed : Option Bool
  /-- The state is the one right after an IRQ or NMI entry sequence (R271). -/
  afterEntry : Bool
  /-- The state is the one right after the reset sequence: the first instruction is about to begin, and the NMI detector
  takes the level the line then has without an edge (R279, R300). -/
  afterReset : Bool
  /-- For how many clock cycles RES has been held low so far; 0 when it is not held (R300). -/
  resCycles : Nat
  /-- External memory $0002 to $FFFF (R60). -/
  mem : Memory
  /-- What answers at each address; an address in no window is RAM (D1). -/
  busMap : List Window
  /-- The input lines at the coming boundaries, the nearest first; after the last of them all lines are idle (D3). -/
  lines : List Lines
  /-- The levels of pins P5..P0 at the coming reads of $0001, the nearest first; after the last of them free (D2). -/
  portIn : List (BitVec 6)
  /-- The model's own: the index of the next free value. -/
  draws : Nat
  /-- The model's own: the accesses of the current step, in the order made (R69). -/
  accesses : List Access
  /-- Clock cycles spent (R320 to R324); no instruction reads it (R290). -/
  cycles : Nat
deriving DecidableEq, Repr

/-- The named updates of single fields. -/
def State.setA (s : State) (v : Byte) : State := { s with a := v }
def State.setX (s : State) (v : Byte) : State := { s with x := v }
def State.setY (s : State) (v : Byte) : State := { s with y := v }
def State.setSp (s : State) (v : Byte) : State := { s with sp := v }
def State.setPc (s : State) (v : Word) : State := { s with pc := v }
def State.setP (s : State) (v : Status) : State := { s with p := v }
def State.setDdr (s : State) (v : Byte) : State := { s with ddr := v }
def State.setPor (s : State) (v : Byte) : State := { s with por := v }
def State.setNmiPending (s : State) (v : Bool) : State := { s with nmiPending := v }
def State.setNmiPrev (s : State) (v : Bool) : State := { s with nmiPrev := v }
def State.setIDelayed (s : State) (v : Option Bool) : State := { s with iDelayed := v }
def State.setAfterEntry (s : State) (v : Bool) : State := { s with afterEntry := v }
def State.setAfterReset (s : State) (v : Bool) : State := { s with afterReset := v }
def State.setResCycles (s : State) (v : Nat) : State := { s with resCycles := v }
def State.setMem (s : State) (v : Memory) : State := { s with mem := v }
def State.setLines (s : State) (v : List Lines) : State := { s with lines := v }
def State.setPortIn (s : State) (v : List (BitVec 6)) : State := { s with portIn := v }
def State.setDraws (s : State) (v : Nat) : State := { s with draws := v }
def State.setAccesses (s : State) (v : List Access) : State := { s with accesses := v }

/-- One more access made. -/
def State.logAccess (s : State) (v : Access) : State := { s with accesses := s.accesses ++ [v] }

/-- `n` more clock cycles spent. -/
def State.tick (s : State) (n : Nat) : State := { s with cycles := s.cycles + n }

/-- The machine right after reset (R43 to R48): I set, no NMI pending, PC the word at $FFFC of a memory that lists nothing,
hence $0000. The values the spec leaves unspecified are the model's (DESIGN CHOICE, assumption log 6 to 9). -/
def State.reset : State where
  a := 0
  x := 0
  y := 0
  sp := 0xFF
  pc := 0x0000
  p := { n := false, v := false, d := false, i := true, z := false, c := false }
  ddr := 0
  por := 0
  nmiPending := false
  nmiPrev := true
  iDelayed := none
  afterEntry := false
  afterReset := true
  resCycles := 0
  mem := []
  busMap := []
  lines := []
  portIn := []
  draws := 0
  accesses := []
  cycles := 0

end Sys2Proof.Machine
end

