-- ==== Sys2Proof/Machine/Flags.lean ====
section
/-! DEFINITION. Every flag computation of the spec: the byte form of P (R31 to R34), N and Z of a result (R28), binary and
decimal addition and subtraction (R170 to R172), shifts and rotates (R194 to R197), compares (R210 to R212), BIT (R193). -/

namespace Sys2Proof.Machine

/-- `PByte(b)` (R33): the byte pushed for P. Bit 5 is 1, bit 4 is `b`: 1 for BRK and PHP, 0 for IRQ and NMI entry. -/
def statusByte (p : Status) (b : Bool) : Byte :=
  BitVec.ofNat 8 (p.n.toNat * 128 + p.v.toNat * 64 + 32 + b.toNat * 16 + p.d.toNat * 8 + p.i.toNat * 4 + p.z.toNat * 2
    + p.c.toNat)

/-- `SetP(v)` (R34): the flags a pulled byte gives; bits 5 and 4 are discarded. -/
def statusOfByte (v : Byte) : Status where
  n := v.getLsbD 7
  v := v.getLsbD 6
  d := v.getLsbD 3
  i := v.getLsbD 2
  z := v.getLsbD 1
  c := v.getLsbD 0

/-- `SetNZ(v)` (R8, R28): N is bit 7 of the result byte, Z says that it is zero. -/
def setNZ (p : Status) (v : Byte) : Status :=
  { p with n := v.msb, z := v == 0 }

/-- A result byte with its carry and overflow. -/
structure Sum where
  val : Byte
  carry : Bool
  overflow : Bool
deriving DecidableEq, Repr

/-- Binary `A + M + C` (R170). -/
def addBinary (a m : Byte) (c : Bool) : Sum :=
  let sum := a.toNat + m.toNat + c.toNat
  let r := BitVec.ofNat 8 sum
  { val := r
    carry := decide (256 ≤ sum)
    overflow := a.msb == m.msb && r.msb != a.msb }

/-- Binary `A - M - (1 - C)` (R171): carry 1 means no borrow. -/
def subBinary (a m : Byte) (c : Bool) : Sum :=
  let diff : Int := (a.toNat : Int) - m.toNat - (1 - c.toNat)
  let r := BitVec.ofInt 8 diff
  { val := r
    carry := decide (0 ≤ diff)
    overflow := a.msb != m.msb && r.msb != a.msb }

/-- Both nibbles in 0..9 (R172). -/
def validBcd (b : Byte) : Bool :=
  b.toNat / 16 ≤ 9 && b.toNat % 16 ≤ 9

/-- `bcd(b)` (R172): the value of a valid BCD byte. -/
def bcd (b : Byte) : Nat :=
  10 * (b.toNat / 16) + b.toNat % 16

/-- `tobcd(n)` for n in 0..99 (R172). -/
def toBcd (n : Nat) : Byte :=
  BitVec.ofNat 8 (n / 10 * 16 + n % 10)

/-- Decimal addition of valid BCD operands (R172): the sum byte and the carry. -/
def addDecimal (a m : Byte) (c : Bool) : Byte × Bool :=
  let s := bcd a + bcd m + c.toNat
  (toBcd (s % 100), decide (100 ≤ s))

/-- Decimal subtraction of valid BCD operands (R172): the difference byte and the carry, 1 for no borrow. -/
def subDecimal (a m : Byte) (c : Bool) : Byte × Bool :=
  let d : Int := (bcd a : Int) - bcd m - (1 - c.toNat)
  (toBcd (d % 100).toNat, decide (0 ≤ d))

/-- ASL (R194): bit 7 goes to the carry, 0 enters bit 0. -/
def shiftLeft (v : Byte) (_c : Bool) : Byte × Bool :=
  (v <<< 1, v.msb)

/-- LSR (R195): bit 0 goes to the carry, 0 enters bit 7. -/
def shiftRight (v : Byte) (_c : Bool) : Byte × Bool :=
  (v >>> 1, v.getLsbD 0)

/-- ROL (R196): bit 7 goes to the carry, the old carry enters bit 0. -/
def rotateLeft (v : Byte) (c : Bool) : Byte × Bool :=
  (v <<< 1 ||| BitVec.ofNat 8 c.toNat, v.msb)

/-- ROR (R197): bit 0 goes to the carry, the old carry enters bit 7. -/
def rotateRight (v : Byte) (c : Bool) : Byte × Bool :=
  (v >>> 1 ||| BitVec.ofNat 8 (c.toNat * 128), v.getLsbD 0)

/-- The flags after comparing a register with `M` (R210): C for register ≥ M unsigned, Z for equal, N bit 7 of the
difference. -/
def compareFlags (p : Status) (reg m : Byte) : Status :=
  { p with c := decide (m.toNat ≤ reg.toNat), z := reg == m, n := (reg - m).msb }

/-- The flags after BIT (R193): N and V from bits 7 and 6 of `M`, Z from `A AND M`. -/
def bitFlags (p : Status) (a m : Byte) : Status :=
  { p with n := m.getLsbD 7, v := m.getLsbD 6, z := (a &&& m) == 0 }

end Sys2Proof.Machine
end

