-- ==== Sys2Proof/Machine/Memory.lean ====
section
/-! DEFINITION. The byte store behind $0002 to $FFFF as a list in canonical form. -/

namespace Sys2Proof.Machine

/-- What an address that the list does not hold reads as. The spec leaves memory content at power-up to the platform
(R48, R305 item 7); $00 is the model's value (DESIGN CHOICE, unsafe, assumption log 1). -/
def Memory.unlisted : Byte :=
  0x00

/-- The byte held at an address. -/
def Memory.read : Memory → Nat → Byte
  | [], _ => Memory.unlisted
  | (k, v) :: rest, addr => if k = addr then v else Memory.read rest addr

/-- The list without an address. -/
def Memory.erase (m : Memory) (addr : Nat) : Memory :=
  m.filter (fun c => c.1 != addr)

/-- The list with a byte put at an address, at its place in the rising order. -/
def Memory.insert : Memory → Nat → Byte → Memory
  | [], addr, v => [(addr, v)]
  | (k, w) :: rest, addr, v =>
    if addr < k then (addr, v) :: (k, w) :: rest
    else if addr = k then (addr, v) :: rest
    else (k, w) :: Memory.insert rest addr v

/-- Store a byte, keeping the canonical form: a byte equal to what an unlisted address reads as is not listed. -/
def Memory.write (m : Memory) (addr : Nat) (v : Byte) : Memory :=
  if v = Memory.unlisted then m.erase addr else m.insert addr v

/-- Addresses strictly rising from the head. -/
def Memory.rising : Memory → Bool
  | [] => true
  | [_] => true
  | a :: b :: rest => a.1 < b.1 && Memory.rising (b :: rest)

/-- An entry the canonical form may hold: an external address, $0002 to $FFFF (R60), with a byte worth listing. -/
def Memory.entryOk (c : Host.Cell) : Bool :=
  2 ≤ c.1 && c.1 < 65536 && c.2 != Memory.unlisted

/-- The canonical form. -/
def Memory.wf (m : Memory) : Bool :=
  m.rising && m.all Memory.entryOk

end Sys2Proof.Machine
end

