-- ==== Sys2Proof/Machine/Ops.lean ====
section
/-! DEFINITION. The named operations over memory, the port, the stack and the exceptions. `memRead` and `memWrite` are the
only two through which anything touches memory or the port (R61, R62). An operation that reads answers the value and the
state after it, because a read can use up an input sample or a free value. -/

namespace Sys2Proof.Machine

/-- `draw` (R8): a free byte, and the supply advanced. -/
def drawByte (s : State) : Byte × State :=
  (Config.freeByte s.draws, s.setDraws (s.draws + 1))

/-- Whether a window covers an address. -/
def covers (w : Window) (addr : Nat) : Bool :=
  w.base ≤ addr && addr < w.base + w.size

/-- What answers at an address: the first window that covers it, else RAM (D1). -/
def busKind (s : State) (addr : Word) : BusKind :=
  match s.busMap.find? (fun w => covers w addr.toNat) with
  | some w => w.kind
  | none => .ram

/-- The byte stored at an address, without a bus cycle: DDR, the port's latch, or external memory. -/
def byteAt (s : State) (addr : Word) : Byte :=
  if addr = 0x0000#16 then s.ddr
  else if addr = 0x0001#16 then s.por
  else s.mem.read addr.toNat

/-- Whether a write to an address is stored there: the port registers and RAM. -/
def stores (s : State) (addr : Word) : Bool :=
  addr == 0x0000#16 || addr == 0x0001#16 || busKind s addr == .ram

/-- The levels of P5..P0 at this moment (R37, D2): the next sample of the environment, or a free value (R72). -/
def portPins (s : State) : BitVec 6 × State :=
  match s.portIn with
  | pins :: rest => (pins, s.setPortIn rest)
  | [] => ((drawByte s).1.setWidth 6, (drawByte s).2)

/-- What a read of $0001 returns (R37, R38): latch bits where DDR is 1, pin levels where it is 0, with bits 6 and 7
reading 1 there (D11). -/
def portValue (ddr por : Byte) (pins : BitVec 6) : Byte :=
  (por &&& ddr) ||| ((0xC0#8 ||| pins.setWidth 8) &&& ~~~ddr)

/-- The level the chip drives on pin Pi, or none where it does not drive it (10_state.md section 5). -/
def portOut (s : State) (i : Fin 6) : Option Bool :=
  if s.ddr.getLsbD i then some (s.por.getLsbD i) else none

/-- What answers a read (R61): DDR at $0000, the port at $0001, else the bus. -/
def busRead (addr : Word) (s : State) : Byte × State :=
  if addr = 0x0001#16 then
    (portValue s.ddr s.por (portPins s).1, (portPins s).2)
  else if addr ≠ 0x0000#16 ∧ busKind s addr = .device then drawByte s
  else (byteAt s addr, s)

/-- `MemRead(addr, 1)` (R61). -/
def memRead (addr : Word) (s : State) : Byte × State :=
  ((busRead addr s).1, (busRead addr s).2.logAccess ⟨.read, addr, (busRead addr s).1⟩)

/-- What a write leaves (R62): DDR at $0000, the latch at $0001 whatever DDR holds (R36, D10), the byte in RAM; ROM and
devices store nothing here. -/
def storeByte (addr : Word) (v : Byte) (s : State) : State :=
  if addr = 0x0000#16 then s.setDdr v
  else if addr = 0x0001#16 then s.setPor v
  else if busKind s addr = .ram then s.setMem (s.mem.write addr.toNat v)
  else s

/-- `MemWrite(addr, 1, v)` (R62). A write never faults. -/
def memWrite (addr : Word) (v : Byte) (s : State) : State :=
  (storeByte addr v s).logAccess ⟨.write, addr, v⟩

/-- `Read16(addr)` (R8): low byte first, the second address modulo 65536. -/
def read16 (addr : Word) (s : State) : Word × State :=
  let lo := memRead addr s
  let hi := memRead (addr + 1) lo.2
  (mkWord hi.1 lo.1, hi.2)

/-- `Read16ZP(z)` (R8, R113): both bytes in page zero, the second address modulo 256. -/
def read16ZP (z : Byte) (s : State) : Word × State :=
  let lo := memRead (zext z) s
  let hi := memRead (zext (z + 1)) lo.2
  (mkWord hi.1 lo.1, hi.2)

/-- `Fetch8()` (R8): the byte at PC, and PC advanced modulo 65536. -/
def fetch8 (s : State) : Byte × State :=
  let b := memRead s.pc s
  (b.1, b.2.setPc (s.pc + 1))

/-- `Push(v)` (R8, R24): write at `$0100 + SP`, then decrement SP modulo 256. -/
def push (v : Byte) (s : State) : State :=
  (memWrite (stackAddr s.sp) v s).setSp (s.sp - 1)

/-- `Pull()` (R8, R24): increment SP modulo 256, then read at `$0100 + SP`. -/
def pull (s : State) : Byte × State :=
  memRead (stackAddr (s.sp + 1)) (s.setSp (s.sp + 1))

/-- Push PC, high byte first (R67, R277). -/
def pushPc (pc : Word) (s : State) : State :=
  push (lowByte pc) (push (highByte pc) s)

/-- Pull PC, low byte first (R67). -/
def pullPc (s : State) : Word × State :=
  let lo := pull s
  let hi := pull lo.2
  (mkWord hi.1 lo.1, hi.2)

/-- TAKING AN EXCEPTION: the entry sequence shared by BRK, IRQ and NMI (R247, R273, R275, R277). It pushes PCH, PCL and P
with bit 4 = `brk` and I as it was, then sets I if the event does, and loads PC from the vector. Nothing else changes; in
particular D does not. Seven cycles (R323). -/
def takeException (vector : Word) (brk setsI : Bool) (s : State) : State :=
  let pushed := push (statusByte s.p brk) (pushPc s.pc s)
  let masked := pushed.setP { s.p with i := s.p.i || setsI }
  let target := read16 vector masked
  (target.2.setPc target.1).tick 7

/-- THE RETURN from an exception (R249, R282): pull P, bits 5 and 4 discarded, then PC, used as it is. Six cycles. -/
def returnFromException (s : State) : State :=
  let v := pull s
  let target := pullPc (v.2.setP (statusOfByte v.1))
  (target.2.setPc target.1).tick 6

/-- The vector addresses (R260). -/
def nmiVector : Word := 0xFFFA
def resetVector : Word := 0xFFFC
def irqVector : Word := 0xFFFE

/-- NMI entry (R273): the pending bit is cleared, bit 4 of the pushed P is 0, I is set only if `NMI_SETS_I` (R274). -/
def nmiEntry (nmiSetsI : Bool) (s : State) : State :=
  takeException nmiVector false nmiSetsI (s.setNmiPending false)

/-- IRQ entry (R275): bit 4 of the pushed P is 0, I is set. -/
def irqEntry (s : State) : State :=
  takeException irqVector false true s

/-- The register values the reset sequence leaves, before it reads the vector (R300, R43 to R48): I set, the NMI detector
restarted at the line's level with its edges still to be discarded (R279), and everything the spec leaves unspecified free or a constant of `Config`. -/
def resetRegisters (nmiLow : Bool) (s : State) : State :=
  { s with
    a := Config.freeByte s.draws
    x := Config.freeByte (s.draws + 1)
    y := Config.freeByte (s.draws + 2)
    p := { statusOfByte (Config.freeByte (s.draws + 3)) with i := true }
    sp := Config.resetSp
    ddr := Config.resetDdr
    por := Config.resetPor
    nmiPending := false
    nmiPrev := !nmiLow
    iDelayed := none
    afterEntry := false
    afterReset := true
    resCycles := 0
    draws := s.draws + 4 }

/-- The reset sequence at the release of RES (R300): the register values, then PC from the reset vector through ordinary
reads. It pushes nothing and writes no memory. Six cycles (R323). -/
def resetSequence (nmiLow : Bool) (s : State) : State :=
  let target := read16 resetVector (resetRegisters nmiLow s)
  (target.2.setPc target.1).tick 6

end Sys2Proof.Machine
end

