-- ==== Sys2Proof/Machine/Operands.lean ====
section
/-! DEFINITION. The addressing modes (30_encoding.md section 3): the effective address of every memory operand, the operand
byte `M`, the pointer of JMP indirect, the target of a branch, and the cycle cost that depends on a page crossing. -/

namespace Sys2Proof.Machine

/-- An effective address, whether its page differs from the base's (R112, R116), and the state after the pointer reads. -/
structure Resolved where
  addr : Word
  crossed : Bool
  st : State
deriving DecidableEq, Repr

/-- A base plus an unsigned index modulo 65536, with the page test (R112, R116, R321). -/
def indexed (base : Word) (index : Byte) (s : State) : Resolved :=
  { addr := base + zext index
    crossed := highByte (base + zext index) != highByte base
    st := s }

/-- The effective address of each memory mode (R108 to R112, R115, R116). Sums of the zero-page modes stay in page zero. -/
def resolve (m : AddrMode) (s : State) : Resolved :=
  match m with
  | .zpg z => ⟨zext z, false, s⟩
  | .zpgX z => ⟨zext (z + s.x), false, s⟩
  | .zpgY z => ⟨zext (z + s.y), false, s⟩
  | .abs w => ⟨w, false, s⟩
  | .absX w => indexed w s.x s
  | .absY w => indexed w s.y s
  | .xInd z => ⟨(read16ZP (z + s.x) s).1, false, (read16ZP (z + s.x) s).2⟩
  | .indY z => indexed (read16ZP z s).1 s.y (read16ZP z s).2

/-- An operand byte, whether its address crossed a page, and the state after the reads. -/
structure DataRead where
  val : Byte
  crossed : Bool
  st : State
deriving DecidableEq, Repr

/-- The operand `M` (R107, 30_encoding.md section 3): byte 1 for Immediate, else one read of the effective address. -/
def readData (d : DataOperand) (s : State) : DataRead :=
  match d with
  | .imm m => ⟨m, false, s⟩
  | .mem m =>
    let ea := resolve m s
    let v := memRead ea.addr ea.st
    ⟨v.1, ea.crossed, v.2⟩

/-- The pointer of JMP indirect (R117): the high byte's address increments only the low byte of the pointer's. -/
def readJumpPointer (ptr : Word) (s : State) : Word × State :=
  let lo := memRead ptr s
  let hi := memRead (mkWord (highByte ptr) (lowByte ptr + 1)) lo.2
  (mkWord hi.1 lo.1, hi.2)

/-- A branch target (R114): the address after the branch, which PC holds, plus the signed offset. -/
def branchTarget (pc : Word) (b : Byte) : Word :=
  pc + sext b

/-- A row of the cycle table (R320): a count, or a count marked `*`. -/
inductive Cost where
  | exact (n : Nat)
  | starred (n : Nat)
deriving DecidableEq, Repr

/-- The cycles of a row: a starred one takes one more when a page is crossed (R321). -/
def costCycles (c : Cost) (crossed : Bool) : Nat :=
  match c with
  | .exact n => n
  | .starred n => n + crossed.toNat

end Sys2Proof.Machine
end

