-- ==== Sys2Proof/Machine/Arithmetic.lean ====
section
/-! DEFINITION. Arithmetic instructions (42_arithmetic.md, R170 to R179). D selects decimal mode for ADC and SBC alone
(R172). -/

namespace Sys2Proof.Machine

/-- A binary sum into A with N, V, Z, C (R170, R171). -/
def putSum (r : Sum) (s : State) : State :=
  (s.setA r.val).setP { setNZ s.p r.val with v := r.overflow, c := r.carry }

/-- A decimal result into A with its carry; N, V and Z are a draw each (R172, D9): bits 7, 6 and 1 of one free byte. -/
def putDecimal (r : Byte × Bool) (s : State) : State :=
  let f := statusOfByte (drawByte s).1
  ((drawByte s).2.setA r.1).setP { s.p with n := f.n, v := f.v, z := f.z, c := r.2 }

/-- Decimal mode on an operand that is not BCD (R172, U3): A is a draw, and N, V, Z, C a draw each. -/
def putOpen (s : State) : State :=
  let v := drawByte s
  let w := drawByte v.2
  let f := statusOfByte w.1
  (w.2.setA v.1).setP { s.p with n := f.n, v := f.v, z := f.z, c := f.c }

/-- The effect of ADC on A and the flags for operand `m` (R170, R172). -/
def addToA (m : Byte) (s : State) : State :=
  if s.p.d then
    if validBcd s.a && validBcd m then putDecimal (addDecimal s.a m s.p.c) s else putOpen s
  else putSum (addBinary s.a m s.p.c) s

/-- The effect of SBC on A and the flags for operand `m` (R171, R172). -/
def subFromA (m : Byte) (s : State) : State :=
  if s.p.d then
    if validBcd s.a && validBcd m then putDecimal (subDecimal s.a m s.p.c) s else putOpen s
  else putSum (subBinary s.a m s.p.c) s

/-- ADC with its operand read (R170). -/
def adc (d : DataOperand) (cost : Cost) (s : State) : State :=
  let r := readData d s
  (addToA r.val r.st).tick (costCycles cost r.crossed)

/-- SBC with its operand read (R171). -/
def sbc (d : DataOperand) (cost : Cost) (s : State) : State :=
  let r := readData d s
  (subFromA r.val r.st).tick (costCycles cost r.crossed)

/-- Add `delta` to a byte of memory: one read, then one write of the same address, N and Z from the byte written
(R174, R175, R68). -/
def addToMem (delta : Byte) (m : AddrMode) (n : Nat) (s : State) : State :=
  let ea := resolve m s
  let v := memRead ea.addr ea.st
  ((memWrite ea.addr (v.1 + delta) v.2).setP (setNZ s.p (v.1 + delta))).tick n

/-- A new X with N and Z (R176, R178). -/
def countX (v : Byte) (s : State) : State :=
  ((s.setX v).setP (setNZ s.p v)).tick 2

/-- A new Y with N and Z (R177, R179). -/
def countY (v : Byte) (s : State) : State :=
  ((s.setY v).setP (setNZ s.p v)).tick 2

/-- ADC, Immediate: $69 (R170). -/
def execAdcImm (m : Byte) (s : State) : Host.Outcome State Fault Refusal :=
  .next (adc (.imm m) (.exact 2) s)

/-- ADC, Zero Page: $65 (R170). -/
def execAdcZpg (z : Byte) (s : State) : Host.Outcome State Fault Refusal :=
  .next (adc (.mem (.zpg z)) (.exact 3) s)

/-- ADC, Zero Page,X: $75 (R170). -/
def execAdcZpgX (z : Byte) (s : State) : Host.Outcome State Fault Refusal :=
  .next (adc (.mem (.zpgX z)) (.exact 4) s)

/-- ADC, Absolute: $6D (R170). -/
def execAdcAbs (w : Word) (s : State) : Host.Outcome State Fault Refusal :=
  .next (adc (.mem (.abs w)) (.exact 4) s)

/-- ADC, Absolute,X: $7D (R170). -/
def execAdcAbsX (w : Word) (s : State) : Host.Outcome State Fault Refusal :=
  .next (adc (.mem (.absX w)) (.starred 4) s)

/-- ADC, Absolute,Y: $79 (R170). -/
def execAdcAbsY (w : Word) (s : State) : Host.Outcome State Fault Refusal :=
  .next (adc (.mem (.absY w)) (.starred 4) s)

/-- ADC, (Indirect,X): $61 (R170). -/
def execAdcXInd (z : Byte) (s : State) : Host.Outcome State Fault Refusal :=
  .next (adc (.mem (.xInd z)) (.exact 6) s)

/-- ADC, (Indirect),Y: $71 (R170). -/
def execAdcIndY (z : Byte) (s : State) : Host.Outcome State Fault Refusal :=
  .next (adc (.mem (.indY z)) (.starred 5) s)

/-- SBC, Immediate: $E9 (R171). -/
def execSbcImm (m : Byte) (s : State) : Host.Outcome State Fault Refusal :=
  .next (sbc (.imm m) (.exact 2) s)

/-- SBC, Zero Page: $E5 (R171). -/
def execSbcZpg (z : Byte) (s : State) : Host.Outcome State Fault Refusal :=
  .next (sbc (.mem (.zpg z)) (.exact 3) s)

/-- SBC, Zero Page,X: $F5 (R171). -/
def execSbcZpgX (z : Byte) (s : State) : Host.Outcome State Fault Refusal :=
  .next (sbc (.mem (.zpgX z)) (.exact 4) s)

/-- SBC, Absolute: $ED (R171). -/
def execSbcAbs (w : Word) (s : State) : Host.Outcome State Fault Refusal :=
  .next (sbc (.mem (.abs w)) (.exact 4) s)

/-- SBC, Absolute,X: $FD (R171). -/
def execSbcAbsX (w : Word) (s : State) : Host.Outcome State Fault Refusal :=
  .next (sbc (.mem (.absX w)) (.starred 4) s)

/-- SBC, Absolute,Y: $F9 (R171). -/
def execSbcAbsY (w : Word) (s : State) : Host.Outcome State Fault Refusal :=
  .next (sbc (.mem (.absY w)) (.starred 4) s)

/-- SBC, (Indirect,X): $E1 (R171). -/
def execSbcXInd (z : Byte) (s : State) : Host.Outcome State Fault Refusal :=
  .next (sbc (.mem (.xInd z)) (.exact 6) s)

/-- SBC, (Indirect),Y: $F1 (R171). -/
def execSbcIndY (z : Byte) (s : State) : Host.Outcome State Fault Refusal :=
  .next (sbc (.mem (.indY z)) (.starred 5) s)

/-- INC, Zero Page: $E6 (R174). -/
def execIncZpg (z : Byte) (s : State) : Host.Outcome State Fault Refusal :=
  .next (addToMem 1 (.zpg z) 5 s)

/-- INC, Zero Page,X: $F6 (R174). -/
def execIncZpgX (z : Byte) (s : State) : Host.Outcome State Fault Refusal :=
  .next (addToMem 1 (.zpgX z) 6 s)

/-- INC, Absolute: $EE (R174). -/
def execIncAbs (w : Word) (s : State) : Host.Outcome State Fault Refusal :=
  .next (addToMem 1 (.abs w) 6 s)

/-- INC, Absolute,X: $FE (R174). -/
def execIncAbsX (w : Word) (s : State) : Host.Outcome State Fault Refusal :=
  .next (addToMem 1 (.absX w) 7 s)

/-- DEC, Zero Page: $C6 (R175). -/
def execDecZpg (z : Byte) (s : State) : Host.Outcome State Fault Refusal :=
  .next (addToMem (-1) (.zpg z) 5 s)

/-- DEC, Zero Page,X: $D6 (R175). -/
def execDecZpgX (z : Byte) (s : State) : Host.Outcome State Fault Refusal :=
  .next (addToMem (-1) (.zpgX z) 6 s)

/-- DEC, Absolute: $CE (R175). -/
def execDecAbs (w : Word) (s : State) : Host.Outcome State Fault Refusal :=
  .next (addToMem (-1) (.abs w) 6 s)

/-- DEC, Absolute,X: $DE (R175). -/
def execDecAbsX (w : Word) (s : State) : Host.Outcome State Fault Refusal :=
  .next (addToMem (-1) (.absX w) 7 s)

/-- INX: $E8 (R176). -/
def execInx (s : State) : Host.Outcome State Fault Refusal :=
  .next (countX (s.x + 1) s)

/-- INY: $C8 (R177). -/
def execIny (s : State) : Host.Outcome State Fault Refusal :=
  .next (countY (s.y + 1) s)

/-- DEX: $CA (R178). -/
def execDex (s : State) : Host.Outcome State Fault Refusal :=
  .next (countX (s.x - 1) s)

/-- DEY: $88 (R179). -/
def execDey (s : State) : Host.Outcome State Fault Refusal :=
  .next (countY (s.y - 1) s)

end Sys2Proof.Machine
end

