-- ==== Sys2Proof/Machine/CompareBranch.lean ====
section
/-! DEFINITION. Compare and branch instructions (44_compare_branch.md, R210 to R222). -/

namespace Sys2Proof.Machine

/-- A compare of a register with the operand: flags only (R210 to R212). -/
def compareReg (reg : Byte) (d : DataOperand) (cost : Cost) (s : State) : State :=
  let r := readData d s
  (r.st.setP (compareFlags s.p reg r.val)).tick (costCycles cost r.crossed)

/-- The cycles of a taken branch (R322): 3, and one more when the target lies in another page than the next
instruction. -/
def takenCycles (pc : Word) (b : Byte) : Nat :=
  if highByte (branchTarget pc b) = highByte pc then 3 else 4

/-- A branch (R213): PC, which holds the address of the next instruction, moves by the offset if the condition holds. -/
def branch (cond : Bool) (b : Byte) (s : State) : State :=
  if cond then (s.setPc (branchTarget s.pc b)).tick (takenCycles s.pc b) else s.tick 2

/-- CMP, Immediate: $C9 (R210). -/
def execCmpImm (m : Byte) (s : State) : Host.Outcome State Fault Refusal :=
  .next (compareReg s.a (.imm m) (.exact 2) s)

/-- CMP, Zero Page: $C5 (R210). -/
def execCmpZpg (z : Byte) (s : State) : Host.Outcome State Fault Refusal :=
  .next (compareReg s.a (.mem (.zpg z)) (.exact 3) s)

/-- CMP, Zero Page,X: $D5 (R210). -/
def execCmpZpgX (z : Byte) (s : State) : Host.Outcome State Fault Refusal :=
  .next (compareReg s.a (.mem (.zpgX z)) (.exact 4) s)

/-- CMP, Absolute: $CD (R210). -/
def execCmpAbs (w : Word) (s : State) : Host.Outcome State Fault Refusal :=
  .next (compareReg s.a (.mem (.abs w)) (.exact 4) s)

/-- CMP, Absolute,X: $DD (R210). -/
def execCmpAbsX (w : Word) (s : State) : Host.Outcome State Fault Refusal :=
  .next (compareReg s.a (.mem (.absX w)) (.starred 4) s)

/-- CMP, Absolute,Y: $D9 (R210). -/
def execCmpAbsY (w : Word) (s : State) : Host.Outcome State Fault Refusal :=
  .next (compareReg s.a (.mem (.absY w)) (.starred 4) s)

/-- CMP, (Indirect,X): $C1 (R210). -/
def execCmpXInd (z : Byte) (s : State) : Host.Outcome State Fault Refusal :=
  .next (compareReg s.a (.mem (.xInd z)) (.exact 6) s)

/-- CMP, (Indirect),Y: $D1 (R210). -/
def execCmpIndY (z : Byte) (s : State) : Host.Outcome State Fault Refusal :=
  .next (compareReg s.a (.mem (.indY z)) (.starred 5) s)

/-- CPX, Immediate: $E0 (R211). -/
def execCpxImm (m : Byte) (s : State) : Host.Outcome State Fault Refusal :=
  .next (compareReg s.x (.imm m) (.exact 2) s)

/-- CPX, Zero Page: $E4 (R211). -/
def execCpxZpg (z : Byte) (s : State) : Host.Outcome State Fault Refusal :=
  .next (compareReg s.x (.mem (.zpg z)) (.exact 3) s)

/-- CPX, Absolute: $EC (R211). -/
def execCpxAbs (w : Word) (s : State) : Host.Outcome State Fault Refusal :=
  .next (compareReg s.x (.mem (.abs w)) (.exact 4) s)

/-- CPY, Immediate: $C0 (R212). -/
def execCpyImm (m : Byte) (s : State) : Host.Outcome State Fault Refusal :=
  .next (compareReg s.y (.imm m) (.exact 2) s)

/-- CPY, Zero Page: $C4 (R212). -/
def execCpyZpg (z : Byte) (s : State) : Host.Outcome State Fault Refusal :=
  .next (compareReg s.y (.mem (.zpg z)) (.exact 3) s)

/-- CPY, Absolute: $CC (R212). -/
def execCpyAbs (w : Word) (s : State) : Host.Outcome State Fault Refusal :=
  .next (compareReg s.y (.mem (.abs w)) (.exact 4) s)

/-- BCC, Relative: $90 (R214). -/
def execBcc (b : Byte) (s : State) : Host.Outcome State Fault Refusal :=
  .next (branch (!s.p.c) b s)

/-- BCS, Relative: $B0 (R215). -/
def execBcs (b : Byte) (s : State) : Host.Outcome State Fault Refusal :=
  .next (branch s.p.c b s)

/-- BEQ, Relative: $F0 (R216). -/
def execBeq (b : Byte) (s : State) : Host.Outcome State Fault Refusal :=
  .next (branch s.p.z b s)

/-- BNE, Relative: $D0 (R217). -/
def execBne (b : Byte) (s : State) : Host.Outcome State Fault Refusal :=
  .next (branch (!s.p.z) b s)

/-- BMI, Relative: $30 (R218). -/
def execBmi (b : Byte) (s : State) : Host.Outcome State Fault Refusal :=
  .next (branch s.p.n b s)

/-- BPL, Relative: $10 (R219). -/
def execBpl (b : Byte) (s : State) : Host.Outcome State Fault Refusal :=
  .next (branch (!s.p.n) b s)

/-- BVC, Relative: $50 (R220). -/
def execBvc (b : Byte) (s : State) : Host.Outcome State Fault Refusal :=
  .next (branch (!s.p.v) b s)

/-- BVS, Relative: $70 (R221). -/
def execBvs (b : Byte) (s : State) : Host.Outcome State Fault Refusal :=
  .next (branch s.p.v b s)

end Sys2Proof.Machine
end

