-- ==== Sys2Proof/Machine/FlagSystem.lean ====
section
/-! DEFINITION. Flag and system instructions (46_flags_system.md, R240 to R250). CLI and SEI (and PLP) leave the old I in
`iDelayed` for the IRQ test of the next boundary (R272). -/

namespace Sys2Proof.Machine

/-- Write I by CLI or SEI (R242, R243), remembering the old I. -/
def writeI (v : Bool) (s : State) : State :=
  ((s.setP { s.p with i := v }).setIDelayed (some s.p.i)).tick 2

/-- BRK (R247): PC, already past the opcode, moves past one more byte; then the exception is taken through the IRQ vector
with bit 4 of the pushed P set. -/
def breakPoint (s : State) : State :=
  takeException irqVector true true (s.setPc (s.pc + 1))

/-- CLC: $18 (R240). -/
def execClc (s : State) : Host.Outcome State Fault Refusal :=
  .next ((s.setP { s.p with c := false }).tick 2)

/-- SEC: $38 (R241). -/
def execSec (s : State) : Host.Outcome State Fault Refusal :=
  .next ((s.setP { s.p with c := true }).tick 2)

/-- CLI: $58 (R242). -/
def execCli (s : State) : Host.Outcome State Fault Refusal :=
  .next (writeI false s)

/-- SEI: $78 (R243). -/
def execSei (s : State) : Host.Outcome State Fault Refusal :=
  .next (writeI true s)

/-- CLD: $D8 (R244). -/
def execCld (s : State) : Host.Outcome State Fault Refusal :=
  .next ((s.setP { s.p with d := false }).tick 2)

/-- SED: $F8 (R245). -/
def execSed (s : State) : Host.Outcome State Fault Refusal :=
  .next ((s.setP { s.p with d := true }).tick 2)

/-- CLV: $B8 (R246). -/
def execClv (s : State) : Host.Outcome State Fault Refusal :=
  .next ((s.setP { s.p with v := false }).tick 2)

/-- BRK: $00 (R247). -/
def execBrk (s : State) : Host.Outcome State Fault Refusal :=
  .next (breakPoint s)

/-- NOP: $EA (R248). -/
def execNop (s : State) : Host.Outcome State Fault Refusal :=
  .next (s.tick 2)

/-- RTI: $40 (R249). -/
def execRti (s : State) : Host.Outcome State Fault Refusal :=
  .next (returnFromException s)

end Sys2Proof.Machine
end

