-- ==== Sys2Proof/Machine/Jump.lean ====
section
/-! DEFINITION. Jump and subroutine instructions (45_jump_subroutine.md, R230 to R233). -/

namespace Sys2Proof.Machine

/-- JMP Absolute (R230). -/
def jumpTo (w : Word) (s : State) : State :=
  (s.setPc w).tick 3

/-- JMP Absolute Indirect (R230, R117). -/
def jumpThrough (ptr : Word) (s : State) : State :=
  let target := readJumpPointer ptr s
  (target.2.setPc target.1).tick 5

/-- JSR (R231): push the address of the instruction's last byte, which is PC - 1, high byte first; then jump. -/
def callSubroutine (w : Word) (s : State) : State :=
  ((pushPc (s.pc - 1) s).setPc w).tick 6

/-- RTS (R232): pull PC, low byte first, and add 1. -/
def returnFromSubroutine (s : State) : State :=
  let target := pullPc s
  (target.2.setPc (target.1 + 1)).tick 6

/-- JMP, Absolute: $4C (R230). -/
def execJmpAbs (w : Word) (s : State) : Host.Outcome State Fault Refusal :=
  .next (jumpTo w s)

/-- JMP, Absolute Indirect: $6C (R230). -/
def execJmpInd (w : Word) (s : State) : Host.Outcome State Fault Refusal :=
  .next (jumpThrough w s)

/-- JSR, Absolute: $20 (R231). -/
def execJsr (w : Word) (s : State) : Host.Outcome State Fault Refusal :=
  .next (callSubroutine w s)

/-- RTS: $60 (R232). -/
def execRts (s : State) : Host.Outcome State Fault Refusal :=
  .next (returnFromSubroutine s)

end Sys2Proof.Machine
end

