-- ==== Sys2Proof/Machine/LoadStore.lean ====
section
/-! DEFINITION. Load and store instructions (40_load_store.md, R140 to R146). When a meaning runs, PC already holds the
address of the next instruction (R9), so a meaning here leaves PC alone. Each row's cycle count is that of R320. -/

namespace Sys2Proof.Machine

/-- `A <- M; SetNZ(A)` (R140). -/
def loadA (d : DataOperand) (cost : Cost) (s : State) : State :=
  let r := readData d s
  ((r.st.setA r.val).setP (setNZ s.p r.val)).tick (costCycles cost r.crossed)

/-- `X <- M; SetNZ(X)` (R141). -/
def loadX (d : DataOperand) (cost : Cost) (s : State) : State :=
  let r := readData d s
  ((r.st.setX r.val).setP (setNZ s.p r.val)).tick (costCycles cost r.crossed)

/-- `Y <- M; SetNZ(Y)` (R142). -/
def loadY (d : DataOperand) (cost : Cost) (s : State) : State :=
  let r := readData d s
  ((r.st.setY r.val).setP (setNZ s.p r.val)).tick (costCycles cost r.crossed)

/-- `MemWrite(ea, 1, v)` with the register's value (R143 to R145): one write, no read of the destination, no flag. -/
def storeReg (v : Byte) (m : AddrMode) (n : Nat) (s : State) : State :=
  let ea := resolve m s
  (memWrite ea.addr v ea.st).tick n

/-- LDA, Immediate: $A9 (R140). -/
def execLdaImm (m : Byte) (s : State) : Host.Outcome State Fault Refusal :=
  .next (loadA (.imm m) (.exact 2) s)

/-- LDA, Zero Page: $A5 (R140). -/
def execLdaZpg (z : Byte) (s : State) : Host.Outcome State Fault Refusal :=
  .next (loadA (.mem (.zpg z)) (.exact 3) s)

/-- LDA, Zero Page,X: $B5 (R140). -/
def execLdaZpgX (z : Byte) (s : State) : Host.Outcome State Fault Refusal :=
  .next (loadA (.mem (.zpgX z)) (.exact 4) s)

/-- LDA, Absolute: $AD (R140). -/
def execLdaAbs (w : Word) (s : State) : Host.Outcome State Fault Refusal :=
  .next (loadA (.mem (.abs w)) (.exact 4) s)

/-- LDA, Absolute,X: $BD (R140). -/
def execLdaAbsX (w : Word) (s : State) : Host.Outcome State Fault Refusal :=
  .next (loadA (.mem (.absX w)) (.starred 4) s)

/-- LDA, Absolute,Y: $B9 (R140). -/
def execLdaAbsY (w : Word) (s : State) : Host.Outcome State Fault Refusal :=
  .next (loadA (.mem (.absY w)) (.starred 4) s)

/-- LDA, (Indirect,X): $A1 (R140). -/
def execLdaXInd (z : Byte) (s : State) : Host.Outcome State Fault Refusal :=
  .next (loadA (.mem (.xInd z)) (.exact 6) s)

/-- LDA, (Indirect),Y: $B1 (R140). -/
def execLdaIndY (z : Byte) (s : State) : Host.Outcome State Fault Refusal :=
  .next (loadA (.mem (.indY z)) (.starred 5) s)

/-- LDX, Immediate: $A2 (R141). -/
def execLdxImm (m : Byte) (s : State) : Host.Outcome State Fault Refusal :=
  .next (loadX (.imm m) (.exact 2) s)

/-- LDX, Zero Page: $A6 (R141). -/
def execLdxZpg (z : Byte) (s : State) : Host.Outcome State Fault Refusal :=
  .next (loadX (.mem (.zpg z)) (.exact 3) s)

/-- LDX, Zero Page,Y: $B6 (R141). -/
def execLdxZpgY (z : Byte) (s : State) : Host.Outcome State Fault Refusal :=
  .next (loadX (.mem (.zpgY z)) (.exact 4) s)

/-- LDX, Absolute: $AE (R141). -/
def execLdxAbs (w : Word) (s : State) : Host.Outcome State Fault Refusal :=
  .next (loadX (.mem (.abs w)) (.exact 4) s)

/-- LDX, Absolute,Y: $BE (R141). -/
def execLdxAbsY (w : Word) (s : State) : Host.Outcome State Fault Refusal :=
  .next (loadX (.mem (.absY w)) (.starred 4) s)

/-- LDY, Immediate: $A0 (R142). -/
def execLdyImm (m : Byte) (s : State) : Host.Outcome State Fault Refusal :=
  .next (loadY (.imm m) (.exact 2) s)

/-- LDY, Zero Page: $A4 (R142). -/
def execLdyZpg (z : Byte) (s : State) : Host.Outcome State Fault Refusal :=
  .next (loadY (.mem (.zpg z)) (.exact 3) s)

/-- LDY, Zero Page,X: $B4 (R142). -/
def execLdyZpgX (z : Byte) (s : State) : Host.Outcome State Fault Refusal :=
  .next (loadY (.mem (.zpgX z)) (.exact 4) s)

/-- LDY, Absolute: $AC (R142). -/
def execLdyAbs (w : Word) (s : State) : Host.Outcome State Fault Refusal :=
  .next (loadY (.mem (.abs w)) (.exact 4) s)

/-- LDY, Absolute,X: $BC (R142). -/
def execLdyAbsX (w : Word) (s : State) : Host.Outcome State Fault Refusal :=
  .next (loadY (.mem (.absX w)) (.starred 4) s)

/-- STA, Zero Page: $85 (R143). -/
def execStaZpg (z : Byte) (s : State) : Host.Outcome State Fault Refusal :=
  .next (storeReg s.a (.zpg z) 3 s)

/-- STA, Zero Page,X: $95 (R143). -/
def execStaZpgX (z : Byte) (s : State) : Host.Outcome State Fault Refusal :=
  .next (storeReg s.a (.zpgX z) 4 s)

/-- STA, Absolute: $8D (R143). -/
def execStaAbs (w : Word) (s : State) : Host.Outcome State Fault Refusal :=
  .next (storeReg s.a (.abs w) 4 s)

/-- STA, Absolute,X: $9D (R143). -/
def execStaAbsX (w : Word) (s : State) : Host.Outcome State Fault Refusal :=
  .next (storeReg s.a (.absX w) 5 s)

/-- STA, Absolute,Y: $99 (R143). -/
def execStaAbsY (w : Word) (s : State) : Host.Outcome State Fault Refusal :=
  .next (storeReg s.a (.absY w) 5 s)

/-- STA, (Indirect,X): $81 (R143). -/
def execStaXInd (z : Byte) (s : State) : Host.Outcome State Fault Refusal :=
  .next (storeReg s.a (.xInd z) 6 s)

/-- STA, (Indirect),Y: $91 (R143). -/
def execStaIndY (z : Byte) (s : State) : Host.Outcome State Fault Refusal :=
  .next (storeReg s.a (.indY z) 6 s)

/-- STX, Zero Page: $86 (R144). -/
def execStxZpg (z : Byte) (s : State) : Host.Outcome State Fault Refusal :=
  .next (storeReg s.x (.zpg z) 3 s)

/-- STX, Zero Page,Y: $96 (R144). -/
def execStxZpgY (z : Byte) (s : State) : Host.Outcome State Fault Refusal :=
  .next (storeReg s.x (.zpgY z) 4 s)

/-- STX, Absolute: $8E (R144). -/
def execStxAbs (w : Word) (s : State) : Host.Outcome State Fault Refusal :=
  .next (storeReg s.x (.abs w) 4 s)

/-- STY, Zero Page: $84 (R145). -/
def execStyZpg (z : Byte) (s : State) : Host.Outcome State Fault Refusal :=
  .next (storeReg s.y (.zpg z) 3 s)

/-- STY, Zero Page,X: $94 (R145). -/
def execStyZpgX (z : Byte) (s : State) : Host.Outcome State Fault Refusal :=
  .next (storeReg s.y (.zpgX z) 4 s)

/-- STY, Absolute: $8C (R145). -/
def execStyAbs (w : Word) (s : State) : Host.Outcome State Fault Refusal :=
  .next (storeReg s.y (.abs w) 4 s)

end Sys2Proof.Machine
end

