-- ==== Sys2Proof/Machine/Logic.lean ====
section
/-! DEFINITION. Logical, bit-test, shift and rotate instructions (43_logical_shift_rotate.md, R190 to R198). -/

namespace Sys2Proof.Machine

/-- A bitwise operation of A with the operand, N and Z from the new A (R190 to R192). -/
def logicA (f : Byte → Byte → Byte) (d : DataOperand) (cost : Cost) (s : State) : State :=
  let r := readData d s
  ((r.st.setA (f s.a r.val)).setP (setNZ s.p (f s.a r.val))).tick (costCycles cost r.crossed)

/-- BIT (R193): one read, flags only. -/
def bitTest (m : AddrMode) (n : Nat) (s : State) : State :=
  let r := readData (.mem m) s
  (r.st.setP (bitFlags s.p s.a r.val)).tick n

/-- The flags after a shift or rotate: C the bit shifted out, N and Z from the result byte (R194 to R197). -/
def shiftFlags (p : Status) (r : Byte × Bool) : Status :=
  { setNZ p r.1 with c := r.2 }

/-- The Accumulator form of a shift or rotate (R106). -/
def shiftA (f : Byte → Bool → Byte × Bool) (s : State) : State :=
  ((s.setA (f s.a s.p.c).1).setP (shiftFlags s.p (f s.a s.p.c))).tick 2

/-- A memory form of a shift or rotate: one read, then one write of the same address (R68). -/
def shiftMem (f : Byte → Bool → Byte × Bool) (m : AddrMode) (n : Nat) (s : State) : State :=
  let ea := resolve m s
  let v := memRead ea.addr ea.st
  let r := f v.1 s.p.c
  ((memWrite ea.addr r.1 v.2).setP (shiftFlags s.p r)).tick n

/-- AND, Immediate: $29 (R190). -/
def execAndImm (m : Byte) (s : State) : Host.Outcome State Fault Refusal :=
  .next (logicA (fun a m => a &&& m) (.imm m) (.exact 2) s)

/-- AND, Zero Page: $25 (R190). -/
def execAndZpg (z : Byte) (s : State) : Host.Outcome State Fault Refusal :=
  .next (logicA (fun a m => a &&& m) (.mem (.zpg z)) (.exact 3) s)

/-- AND, Zero Page,X: $35 (R190). -/
def execAndZpgX (z : Byte) (s : State) : Host.Outcome State Fault Refusal :=
  .next (logicA (fun a m => a &&& m) (.mem (.zpgX z)) (.exact 4) s)

/-- AND, Absolute: $2D (R190). -/
def execAndAbs (w : Word) (s : State) : Host.Outcome State Fault Refusal :=
  .next (logicA (fun a m => a &&& m) (.mem (.abs w)) (.exact 4) s)

/-- AND, Absolute,X: $3D (R190). -/
def execAndAbsX (w : Word) (s : State) : Host.Outcome State Fault Refusal :=
  .next (logicA (fun a m => a &&& m) (.mem (.absX w)) (.starred 4) s)

/-- AND, Absolute,Y: $39 (R190). -/
def execAndAbsY (w : Word) (s : State) : Host.Outcome State Fault Refusal :=
  .next (logicA (fun a m => a &&& m) (.mem (.absY w)) (.starred 4) s)

/-- AND, (Indirect,X): $21 (R190). -/
def execAndXInd (z : Byte) (s : State) : Host.Outcome State Fault Refusal :=
  .next (logicA (fun a m => a &&& m) (.mem (.xInd z)) (.exact 6) s)

/-- AND, (Indirect),Y: $31 (R190). -/
def execAndIndY (z : Byte) (s : State) : Host.Outcome State Fault Refusal :=
  .next (logicA (fun a m => a &&& m) (.mem (.indY z)) (.starred 5) s)

/-- ORA, Immediate: $09 (R191). -/
def execOraImm (m : Byte) (s : State) : Host.Outcome State Fault Refusal :=
  .next (logicA (fun a m => a ||| m) (.imm m) (.exact 2) s)

/-- ORA, Zero Page: $05 (R191). -/
def execOraZpg (z : Byte) (s : State) : Host.Outcome State Fault Refusal :=
  .next (logicA (fun a m => a ||| m) (.mem (.zpg z)) (.exact 3) s)

/-- ORA, Zero Page,X: $15 (R191). -/
def execOraZpgX (z : Byte) (s : State) : Host.Outcome State Fault Refusal :=
  .next (logicA (fun a m => a ||| m) (.mem (.zpgX z)) (.exact 4) s)

/-- ORA, Absolute: $0D (R191). -/
def execOraAbs (w : Word) (s : State) : Host.Outcome State Fault Refusal :=
  .next (logicA (fun a m => a ||| m) (.mem (.abs w)) (.exact 4) s)

/-- ORA, Absolute,X: $1D (R191). -/
def execOraAbsX (w : Word) (s : State) : Host.Outcome State Fault Refusal :=
  .next (logicA (fun a m => a ||| m) (.mem (.absX w)) (.starred 4) s)

/-- ORA, Absolute,Y: $19 (R191). -/
def execOraAbsY (w : Word) (s : State) : Host.Outcome State Fault Refusal :=
  .next (logicA (fun a m => a ||| m) (.mem (.absY w)) (.starred 4) s)

/-- ORA, (Indirect,X): $01 (R191). -/
def execOraXInd (z : Byte) (s : State) : Host.Outcome State Fault Refusal :=
  .next (logicA (fun a m => a ||| m) (.mem (.xInd z)) (.exact 6) s)

/-- ORA, (Indirect),Y: $11 (R191). -/
def execOraIndY (z : Byte) (s : State) : Host.Outcome State Fault Refusal :=
  .next (logicA (fun a m => a ||| m) (.mem (.indY z)) (.starred 5) s)

/-- EOR, Immediate: $49 (R192). -/
def execEorImm (m : Byte) (s : State) : Host.Outcome State Fault Refusal :=
  .next (logicA (fun a m => a ^^^ m) (.imm m) (.exact 2) s)

/-- EOR, Zero Page: $45 (R192). -/
def execEorZpg (z : Byte) (s : State) : Host.Outcome State Fault Refusal :=
  .next (logicA (fun a m => a ^^^ m) (.mem (.zpg z)) (.exact 3) s)

/-- EOR, Zero Page,X: $55 (R192). -/
def execEorZpgX (z : Byte) (s : State) : Host.Outcome State Fault Refusal :=
  .next (logicA (fun a m => a ^^^ m) (.mem (.zpgX z)) (.exact 4) s)

/-- EOR, Absolute: $4D (R192). -/
def execEorAbs (w : Word) (s : State) : Host.Outcome State Fault Refusal :=
  .next (logicA (fun a m => a ^^^ m) (.mem (.abs w)) (.exact 4) s)

/-- EOR, Absolute,X: $5D (R192). -/
def execEorAbsX (w : Word) (s : State) : Host.Outcome State Fault Refusal :=
  .next (logicA (fun a m => a ^^^ m) (.mem (.absX w)) (.starred 4) s)

/-- EOR, Absolute,Y: $59 (R192). -/
def execEorAbsY (w : Word) (s : State) : Host.Outcome State Fault Refusal :=
  .next (logicA (fun a m => a ^^^ m) (.mem (.absY w)) (.starred 4) s)

/-- EOR, (Indirect,X): $41 (R192). -/
def execEorXInd (z : Byte) (s : State) : Host.Outcome State Fault Refusal :=
  .next (logicA (fun a m => a ^^^ m) (.mem (.xInd z)) (.exact 6) s)

/-- EOR, (Indirect),Y: $51 (R192). -/
def execEorIndY (z : Byte) (s : State) : Host.Outcome State Fault Refusal :=
  .next (logicA (fun a m => a ^^^ m) (.mem (.indY z)) (.starred 5) s)

/-- BIT, Zero Page: $24 (R193). -/
def execBitZpg (z : Byte) (s : State) : Host.Outcome State Fault Refusal :=
  .next (bitTest (.zpg z) 3 s)

/-- BIT, Absolute: $2C (R193). -/
def execBitAbs (w : Word) (s : State) : Host.Outcome State Fault Refusal :=
  .next (bitTest (.abs w) 4 s)

/-- ASL, Accumulator: $0A (R194). -/
def execAslA (s : State) : Host.Outcome State Fault Refusal :=
  .next (shiftA shiftLeft s)

/-- ASL, Zero Page: $06 (R194). -/
def execAslZpg (z : Byte) (s : State) : Host.Outcome State Fault Refusal :=
  .next (shiftMem shiftLeft (.zpg z) 5 s)

/-- ASL, Zero Page,X: $16 (R194). -/
def execAslZpgX (z : Byte) (s : State) : Host.Outcome State Fault Refusal :=
  .next (shiftMem shiftLeft (.zpgX z) 6 s)

/-- ASL, Absolute: $0E (R194). -/
def execAslAbs (w : Word) (s : State) : Host.Outcome State Fault Refusal :=
  .next (shiftMem shiftLeft (.abs w) 6 s)

/-- ASL, Absolute,X: $1E (R194). -/
def execAslAbsX (w : Word) (s : State) : Host.Outcome State Fault Refusal :=
  .next (shiftMem shiftLeft (.absX w) 7 s)

/-- LSR, Accumulator: $4A (R195). -/
def execLsrA (s : State) : Host.Outcome State Fault Refusal :=
  .next (shiftA shiftRight s)

/-- LSR, Zero Page: $46 (R195). -/
def execLsrZpg (z : Byte) (s : State) : Host.Outcome State Fault Refusal :=
  .next (shiftMem shiftRight (.zpg z) 5 s)

/-- LSR, Zero Page,X: $56 (R195). -/
def execLsrZpgX (z : Byte) (s : State) : Host.Outcome State Fault Refusal :=
  .next (shiftMem shiftRight (.zpgX z) 6 s)

/-- LSR, Absolute: $4E (R195). -/
def execLsrAbs (w : Word) (s : State) : Host.Outcome State Fault Refusal :=
  .next (shiftMem shiftRight (.abs w) 6 s)

/-- LSR, Absolute,X: $5E (R195). -/
def execLsrAbsX (w : Word) (s : State) : Host.Outcome State Fault Refusal :=
  .next (shiftMem shiftRight (.absX w) 7 s)

/-- ROL, Accumulator: $2A (R196). -/
def execRolA (s : State) : Host.Outcome State Fault Refusal :=
  .next (shiftA rotateLeft s)

/-- ROL, Zero Page: $26 (R196). -/
def execRolZpg (z : Byte) (s : State) : Host.Outcome State Fault Refusal :=
  .next (shiftMem rotateLeft (.zpg z) 5 s)

/-- ROL, Zero Page,X: $36 (R196). -/
def execRolZpgX (z : Byte) (s : State) : Host.Outcome State Fault Refusal :=
  .next (shiftMem rotateLeft (.zpgX z) 6 s)

/-- ROL, Absolute: $2E (R196). -/
def execRolAbs (w : Word) (s : State) : Host.Outcome State Fault Refusal :=
  .next (shiftMem rotateLeft (.abs w) 6 s)

/-- ROL, Absolute,X: $3E (R196). -/
def execRolAbsX (w : Word) (s : State) : Host.Outcome State Fault Refusal :=
  .next (shiftMem rotateLeft (.absX w) 7 s)

/-- ROR, Accumulator: $6A (R197). -/
def execRorA (s : State) : Host.Outcome State Fault Refusal :=
  .next (shiftA rotateRight s)

/-- ROR, Zero Page: $66 (R197). -/
def execRorZpg (z : Byte) (s : State) : Host.Outcome State Fault Refusal :=
  .next (shiftMem rotateRight (.zpg z) 5 s)

/-- ROR, Zero Page,X: $76 (R197). -/
def execRorZpgX (z : Byte) (s : State) : Host.Outcome State Fault Refusal :=
  .next (shiftMem rotateRight (.zpgX z) 6 s)

/-- ROR, Absolute: $6E (R197). -/
def execRorAbs (w : Word) (s : State) : Host.Outcome State Fault Refusal :=
  .next (shiftMem rotateRight (.abs w) 6 s)

/-- ROR, Absolute,X: $7E (R197). -/
def execRorAbsX (w : Word) (s : State) : Host.Outcome State Fault Refusal :=
  .next (shiftMem rotateRight (.absX w) 7 s)

end Sys2Proof.Machine
end

