-- ==== Sys2Proof/Machine/Transfer.lean ====
section
/-! DEFINITION. Register transfers and stack instructions (41_transfer_stack.md, R150 to R160). -/

namespace Sys2Proof.Machine

/-- A transfer into A with N and Z from the byte (R152, R153). -/
def transferA (v : Byte) (s : State) : State :=
  ((s.setA v).setP (setNZ s.p v)).tick 2

/-- A transfer into X with N and Z from the byte (R150, R154). -/
def transferX (v : Byte) (s : State) : State :=
  ((s.setX v).setP (setNZ s.p v)).tick 2

/-- A transfer into Y with N and Z from the byte (R151). -/
def transferY (v : Byte) (s : State) : State :=
  ((s.setY v).setP (setNZ s.p v)).tick 2

/-- TAX: $AA (R150). -/
def execTax (s : State) : Host.Outcome State Fault Refusal :=
  .next (transferX s.a s)

/-- TAY: $A8 (R151). -/
def execTay (s : State) : Host.Outcome State Fault Refusal :=
  .next (transferY s.a s)

/-- TXA: $8A (R152). -/
def execTxa (s : State) : Host.Outcome State Fault Refusal :=
  .next (transferA s.x s)

/-- TYA: $98 (R153). -/
def execTya (s : State) : Host.Outcome State Fault Refusal :=
  .next (transferA s.y s)

/-- TSX: $BA (R154). -/
def execTsx (s : State) : Host.Outcome State Fault Refusal :=
  .next (transferX s.sp s)

/-- TXS: $9A (R155). -/
def execTxs (s : State) : Host.Outcome State Fault Refusal :=
  .next ((s.setSp s.x).tick 2)

/-- PHA: $48 (R156). -/
def execPha (s : State) : Host.Outcome State Fault Refusal :=
  .next ((push s.a s).tick 3)

/-- PHP: $08 (R157). -/
def execPhp (s : State) : Host.Outcome State Fault Refusal :=
  .next ((push (statusByte s.p true) s).tick 3)

/-- PLA: $68 (R158). -/
def execPla (s : State) : Host.Outcome State Fault Refusal :=
  let v := pull s
  .next (((v.2.setA v.1).setP (setNZ s.p v.1)).tick 4)

/-- PLP: $28 (R159). -/
def execPlp (s : State) : Host.Outcome State Fault Refusal :=
  let v := pull s
  .next (((v.2.setP (statusOfByte v.1)).setIDelayed (some s.p.i)).tick 4)

end Sys2Proof.Machine
end

