-- ==== Sys2Proof/Machine/Dispatch.lean ====
section
/-! DEFINITION. Each instruction's meaning, one arm per constructor of `Instr`. -/

namespace Sys2Proof.Machine

def exec (i : Instr) (s : State) : Host.Outcome State Fault Refusal :=
  match i with
  -- LoadStore
  | .ldaImm m => Sys2Proof.Machine.execLdaImm m s
  | .ldaZpg z => Sys2Proof.Machine.execLdaZpg z s
  | .ldaZpgX z => Sys2Proof.Machine.execLdaZpgX z s
  | .ldaAbs w => Sys2Proof.Machine.execLdaAbs w s
  | .ldaAbsX w => Sys2Proof.Machine.execLdaAbsX w s
  | .ldaAbsY w => Sys2Proof.Machine.execLdaAbsY w s
  | .ldaXInd z => Sys2Proof.Machine.execLdaXInd z s
  | .ldaIndY z => Sys2Proof.Machine.execLdaIndY z s
  | .ldxImm m => Sys2Proof.Machine.execLdxImm m s
  | .ldxZpg z => Sys2Proof.Machine.execLdxZpg z s
  | .ldxZpgY z => Sys2Proof.Machine.execLdxZpgY z s
  | .ldxAbs w => Sys2Proof.Machine.execLdxAbs w s
  | .ldxAbsY w => Sys2Proof.Machine.execLdxAbsY w s
  | .ldyImm m => Sys2Proof.Machine.execLdyImm m s
  | .ldyZpg z => Sys2Proof.Machine.execLdyZpg z s
  | .ldyZpgX z => Sys2Proof.Machine.execLdyZpgX z s
  | .ldyAbs w => Sys2Proof.Machine.execLdyAbs w s
  | .ldyAbsX w => Sys2Proof.Machine.execLdyAbsX w s
  | .staZpg z => Sys2Proof.Machine.execStaZpg z s
  | .staZpgX z => Sys2Proof.Machine.execStaZpgX z s
  | .staAbs w => Sys2Proof.Machine.execStaAbs w s
  | .staAbsX w => Sys2Proof.Machine.execStaAbsX w s
  | .staAbsY w => Sys2Proof.Machine.execStaAbsY w s
  | .staXInd z => Sys2Proof.Machine.execStaXInd z s
  | .staIndY z => Sys2Proof.Machine.execStaIndY z s
  | .stxZpg z => Sys2Proof.Machine.execStxZpg z s
  | .stxZpgY z => Sys2Proof.Machine.execStxZpgY z s
  | .stxAbs w => Sys2Proof.Machine.execStxAbs w s
  | .styZpg z => Sys2Proof.Machine.execStyZpg z s
  | .styZpgX z => Sys2Proof.Machine.execStyZpgX z s
  | .styAbs w => Sys2Proof.Machine.execStyAbs w s
  -- Transfer
  | .tax => Sys2Proof.Machine.execTax s
  | .tay => Sys2Proof.Machine.execTay s
  | .txa => Sys2Proof.Machine.execTxa s
  | .tya => Sys2Proof.Machine.execTya s
  | .tsx => Sys2Proof.Machine.execTsx s
  | .txs => Sys2Proof.Machine.execTxs s
  | .pha => Sys2Proof.Machine.execPha s
  | .php => Sys2Proof.Machine.execPhp s
  | .pla => Sys2Proof.Machine.execPla s
  | .plp => Sys2Proof.Machine.execPlp s
  -- Arithmetic
  | .adcImm m => Sys2Proof.Machine.execAdcImm m s
  | .adcZpg z => Sys2Proof.Machine.execAdcZpg z s
  | .adcZpgX z => Sys2Proof.Machine.execAdcZpgX z s
  | .adcAbs w => Sys2Proof.Machine.execAdcAbs w s
  | .adcAbsX w => Sys2Proof.Machine.execAdcAbsX w s
  | .adcAbsY w => Sys2Proof.Machine.execAdcAbsY w s
  | .adcXInd z => Sys2Proof.Machine.execAdcXInd z s
  | .adcIndY z => Sys2Proof.Machine.execAdcIndY z s
  | .sbcImm m => Sys2Proof.Machine.execSbcImm m s
  | .sbcZpg z => Sys2Proof.Machine.execSbcZpg z s
  | .sbcZpgX z => Sys2Proof.Machine.execSbcZpgX z s
  | .sbcAbs w => Sys2Proof.Machine.execSbcAbs w s
  | .sbcAbsX w => Sys2Proof.Machine.execSbcAbsX w s
  | .sbcAbsY w => Sys2Proof.Machine.execSbcAbsY w s
  | .sbcXInd z => Sys2Proof.Machine.execSbcXInd z s
  | .sbcIndY z => Sys2Proof.Machine.execSbcIndY z s
  | .incZpg z => Sys2Proof.Machine.execIncZpg z s
  | .incZpgX z => Sys2Proof.Machine.execIncZpgX z s
  | .incAbs w => Sys2Proof.Machine.execIncAbs w s
  | .incAbsX w => Sys2Proof.Machine.execIncAbsX w s
  | .decZpg z => Sys2Proof.Machine.execDecZpg z s
  | .decZpgX z => Sys2Proof.Machine.execDecZpgX z s
  | .decAbs w => Sys2Proof.Machine.execDecAbs w s
  | .decAbsX w => Sys2Proof.Machine.execDecAbsX w s
  | .inx => Sys2Proof.Machine.execInx s
  | .iny => Sys2Proof.Machine.execIny s
  | .dex => Sys2Proof.Machine.execDex s
  | .dey => Sys2Proof.Machine.execDey s
  -- Logic
  | .andImm m => Sys2Proof.Machine.execAndImm m s
  | .andZpg z => Sys2Proof.Machine.execAndZpg z s
  | .andZpgX z => Sys2Proof.Machine.execAndZpgX z s
  | .andAbs w => Sys2Proof.Machine.execAndAbs w s
  | .andAbsX w => Sys2Proof.Machine.execAndAbsX w s
  | .andAbsY w => Sys2Proof.Machine.execAndAbsY w s
  | .andXInd z => Sys2Proof.Machine.execAndXInd z s
  | .andIndY z => Sys2Proof.Machine.execAndIndY z s
  | .oraImm m => Sys2Proof.Machine.execOraImm m s
  | .oraZpg z => Sys2Proof.Machine.execOraZpg z s
  | .oraZpgX z => Sys2Proof.Machine.execOraZpgX z s
  | .oraAbs w => Sys2Proof.Machine.execOraAbs w s
  | .oraAbsX w => Sys2Proof.Machine.execOraAbsX w s
  | .oraAbsY w => Sys2Proof.Machine.execOraAbsY w s
  | .oraXInd z => Sys2Proof.Machine.execOraXInd z s
  | .oraIndY z => Sys2Proof.Machine.execOraIndY z s
  | .eorImm m => Sys2Proof.Machine.execEorImm m s
  | .eorZpg z => Sys2Proof.Machine.execEorZpg z s
  | .eorZpgX z => Sys2Proof.Machine.execEorZpgX z s
  | .eorAbs w => Sys2Proof.Machine.execEorAbs w s
  | .eorAbsX w => Sys2Proof.Machine.execEorAbsX w s
  | .eorAbsY w => Sys2Proof.Machine.execEorAbsY w s
  | .eorXInd z => Sys2Proof.Machine.execEorXInd z s
  | .eorIndY z => Sys2Proof.Machine.execEorIndY z s
  | .bitZpg z => Sys2Proof.Machine.execBitZpg z s
  | .bitAbs w => Sys2Proof.Machine.execBitAbs w s
  | .aslA => Sys2Proof.Machine.execAslA s
  | .aslZpg z => Sys2Proof.Machine.execAslZpg z s
  | .aslZpgX z => Sys2Proof.Machine.execAslZpgX z s
  | .aslAbs w => Sys2Proof.Machine.execAslAbs w s
  | .aslAbsX w => Sys2Proof.Machine.execAslAbsX w s
  | .lsrA => Sys2Proof.Machine.execLsrA s
  | .lsrZpg z => Sys2Proof.Machine.execLsrZpg z s
  | .lsrZpgX z => Sys2Proof.Machine.execLsrZpgX z s
  | .lsrAbs w => Sys2Proof.Machine.execLsrAbs w s
  | .lsrAbsX w => Sys2Proof.Machine.execLsrAbsX w s
  | .rolA => Sys2Proof.Machine.execRolA s
  | .rolZpg z => Sys2Proof.Machine.execRolZpg z s
  | .rolZpgX z => Sys2Proof.Machine.execRolZpgX z s
  | .rolAbs w => Sys2Proof.Machine.execRolAbs w s
  | .rolAbsX w => Sys2Proof.Machine.execRolAbsX w s
  | .rorA => Sys2Proof.Machine.execRorA s
  | .rorZpg z => Sys2Proof.Machine.execRorZpg z s
  | .rorZpgX z => Sys2Proof.Machine.execRorZpgX z s
  | .rorAbs w => Sys2Proof.Machine.execRorAbs w s
  | .rorAbsX w => Sys2Proof.Machine.execRorAbsX w s
  -- CompareBranch
  | .cmpImm m => Sys2Proof.Machine.execCmpImm m s
  | .cmpZpg z => Sys2Proof.Machine.execCmpZpg z s
  | .cmpZpgX z => Sys2Proof.Machine.execCmpZpgX z s
  | .cmpAbs w => Sys2Proof.Machine.execCmpAbs w s
  | .cmpAbsX w => Sys2Proof.Machine.execCmpAbsX w s
  | .cmpAbsY w => Sys2Proof.Machine.execCmpAbsY w s
  | .cmpXInd z => Sys2Proof.Machine.execCmpXInd z s
  | .cmpIndY z => Sys2Proof.Machine.execCmpIndY z s
  | .cpxImm m => Sys2Proof.Machine.execCpxImm m s
  | .cpxZpg z => Sys2Proof.Machine.execCpxZpg z s
  | .cpxAbs w => Sys2Proof.Machine.execCpxAbs w s
  | .cpyImm m => Sys2Proof.Machine.execCpyImm m s
  | .cpyZpg z => Sys2Proof.Machine.execCpyZpg z s
  | .cpyAbs w => Sys2Proof.Machine.execCpyAbs w s
  | .bcc b => Sys2Proof.Machine.execBcc b s
  | .bcs b => Sys2Proof.Machine.execBcs b s
  | .beq b => Sys2Proof.Machine.execBeq b s
  | .bne b => Sys2Proof.Machine.execBne b s
  | .bmi b => Sys2Proof.Machine.execBmi b s
  | .bpl b => Sys2Proof.Machine.execBpl b s
  | .bvc b => Sys2Proof.Machine.execBvc b s
  | .bvs b => Sys2Proof.Machine.execBvs b s
  -- Jump
  | .jmpAbs w => Sys2Proof.Machine.execJmpAbs w s
  | .jmpInd w => Sys2Proof.Machine.execJmpInd w s
  | .jsr w => Sys2Proof.Machine.execJsr w s
  | .rts => Sys2Proof.Machine.execRts s
  -- FlagSystem
  | .clc => Sys2Proof.Machine.execClc s
  | .sec => Sys2Proof.Machine.execSec s
  | .cli => Sys2Proof.Machine.execCli s
  | .sei => Sys2Proof.Machine.execSei s
  | .cld => Sys2Proof.Machine.execCld s
  | .sed => Sys2Proof.Machine.execSed s
  | .clv => Sys2Proof.Machine.execClv s
  | .brk => Sys2Proof.Machine.execBrk s
  | .nop => Sys2Proof.Machine.execNop s
  | .rti => Sys2Proof.Machine.execRti s

end Sys2Proof.Machine
end

