-- ==== Sys2Proof/Machine/Fetch.lean ====
section
/-! DEFINITION. Fetching and running one instruction (R9), and where a program is put for the next fetch. -/

namespace Sys2Proof.Machine

/-- Fetch the operand bytes of an opcode's format, in ascending address order, and complete the instruction
(R9 step 3, R69, R102). -/
def fetchOperands (t : Template) (s : State) : Instr × State :=
  match t with
  | .bare i => (i, s)
  | .withByte f =>
    let b1 := fetch8 s
    (f b1.1, b1.2)
  | .withWord f =>
    let b1 := fetch8 s
    let b2 := fetch8 b1.2
    (f (mkWord b2.1 b1.1), b2.2)

/-- Fetch one instruction (R9 steps 1 to 3): the opcode byte, then its operand bytes. PC ends at the address of the next
instruction. An undocumented opcode is refused at its fetch (R125). -/
def fetch (s : State) : Except Refusal (Instr × State) :=
  let op := fetch8 s
  match decodeOpcode op.1 with
  | none => .error (.undocumentedOpcode op.1)
  | some t => .ok (fetchOperands t op.2)

/-- Execute the instruction at PC (R9). -/
def runInstruction (s : State) : Host.Outcome State Fault Refusal :=
  match fetch s with
  | .error r => .refused r
  | .ok f => exec f.1 f.2

/-- Whether one of the three bytes at an address is a port register, which cannot hold a program byte. -/
def touchesPort (base : Word) : Bool :=
  base == 0xFFFE#16 || base == 0xFFFF#16 || base == 0x0000#16 || base == 0x0001#16

/-- Where a program loaded from outside starts: at PC, or at $1000 where PC points at or just below the port
(assumption log 10). -/
def loadPoint (s : State) : Word :=
  if touchesPort s.pc then 0x1000 else s.pc

/-- Put three bytes into memory from outside, whatever window covers them. -/
def loadBytes (base : Word) (b0 b1 b2 : Byte) (m : Memory) : Memory :=
  ((m.write base.toNat b0).write (base + 1).toNat b1).write (base + 2).toNat b2

/-- A window in which a fetch would not see the bytes loaded at an address. -/
def hidesLoad (base : Word) (w : Window) : Bool :=
  w.kind == .device && (covers w base.toNat || covers w (base + 1).toNat || covers w (base + 2).toNat)

/-- A state whose very next step fetches the three bytes: they are in memory where PC points, no device window covers
them, and nothing else comes first (no reset in progress, no NMI waiting, input lines idle). -/
def loadProgram (b0 b1 b2 : Byte) (s : State) : State :=
  { s with
    pc := loadPoint s
    mem := loadBytes (loadPoint s) b0 b1 b2 s.mem
    busMap := s.busMap.filter (fun w => !hidesLoad (loadPoint s) w)
    lines := []
    resCycles := 0
    nmiPending := false }

end Sys2Proof.Machine
end

