-- ==== Sys2Proof/Machine/Boundary.lean ====
section
/-! DEFINITION. What the processor does at each instruction boundary (R271): hold in reset, run the reset sequence, enter
NMI, enter IRQ, or execute one instruction. The open parameters are an argument (R5). -/

namespace Sys2Proof.Machine

/-- The input lines at this boundary; all idle when the environment presents nothing more (D3). -/
def currentLines (s : State) : Lines :=
  s.lines.headD {}

/-- One sample of the input lines used up. -/
def dropLines (s : State) : State :=
  s.setLines s.lines.tail

/-- Step 1 of R271, the NMI edge detector (R39): an edge is a line seen high and now low, or one that fell and rose, or
rose and fell, in between. An edge from the time of the reset sequence is discarded (R279, D13). -/
def sampleNmi (ln : Lines) (s : State) : State :=
  (s.setNmiPending (!s.afterReset && (s.nmiPending || (s.nmiPrev && ln.nmiLow) || ln.nmiFell))).setNmiPrev !ln.nmiLow

/-- `I_eff` (R272): P.I, or with latency 1, right after CLI, SEI or PLP, the I from before that instruction. -/
def effectiveI (p : Params) (s : State) : Bool :=
  if p.irqMaskLatency then s.iDelayed.getD s.p.i else s.p.i

/-- Whether interrupts are examined in this state: everywhere but right after an entry sequence that does not end at a
boundary (`ENTRY_IS_BOUNDARY` false, R271, D20). -/
def examinesInterrupts (p : Params) (s : State) : Bool :=
  !s.afterEntry || p.entryIsBoundary

/-- The marks of a boundary cleared: what was true of the last step is used up. -/
def leaveBoundary (s : State) : State :=
  ((s.setIDelayed none).setAfterEntry false).setAfterReset false

/-- Steps 2 to 4 of R271: a pending NMI, else an IRQ that is low and not masked, else one instruction; one instruction
at once where interrupts are not examined. The cycles RDY holds the processor are time alone (R78, R287). -/
def chooseAction (p : Params) (ln : Lines) (s : State) : Host.Outcome State Fault Refusal :=
  let s' := (leaveBoundary s).tick ln.rdyHeld
  if examinesInterrupts p s && s.nmiPending then .next ((nmiEntry p.nmiSetsI s').setAfterEntry true)
  else if examinesInterrupts p s && ln.irqLow && !effectiveI p s then .next ((irqEntry s').setAfterEntry true)
  else runInstruction s'

/-- One action with RES high (R271 steps 1 to 4). Whatever it is, RDY can lengthen it, AEC can take a bus from it (U17),
and an NMI edge is recorded. -/
def action (p : Params) (s : State) : Host.Outcome State Fault Refusal :=
  if (currentLines s).aecTakesBus then .refused .busTakenDuringAccess
  else chooseAction p (currentLines s) (sampleNmi (currentLines s) (dropLines s))

/-- What one performed access leaves behind: a write is stored, a read leaves nothing. -/
def replayAccess (s : State) (a : Access) : State :=
  match a.kind with
  | .write => storeByte a.addr a.val s
  | .read => s

/-- Whether an access used up a sample of the port pins. -/
def readsPort (a : Access) : Bool :=
  a.kind == .read && a.addr == 0x0001#16

/-- An action abandoned by RES after a prefix of its accesses (R279, D22): the writes of the prefix are stored, and
nothing after. The registers keep old values here; the reset sequence replaces them all. -/
def abandon (s t : State) (performed : List Access) : State :=
  (((performed.foldl replayAccess s).setPortIn (s.portIn.drop (performed.countP readsPort))).setDraws
    t.draws).setAccesses performed

/-- A step in which RES is low, after what an abandoned action left: the sample is used up, the state is no longer right
after anything, and nothing is executed or recognised. The cycles RDY held the processor before RES fell, at a halted
opcode fetch too, count beside those of RES (R324). -/
def holdFor (ln : Lines) (s : State) : State :=
  ((dropLines (leaveBoundary s)).setResCycles (s.resCycles + ln.resLow)).tick (ln.resLow + ln.rdyHeld)

/-- RES is low (R271 step 0, R279, R300 phase 1). When RES falls in this step, the action it falls into is abandoned
after `resAfter` of its accesses, possibly none. -/
def holdReset (p : Params) (ln : Lines) (s : State) : Host.Outcome State Fault Refusal :=
  if s.resCycles = 0 ∧ 0 < ln.resAfter then
    match action p s with
    | .next t => .next (holdFor ln (abandon s t (t.accesses.take ln.resAfter)))
    | .fault r => .fault r
    | .refused r => .refused r
  else .next (holdFor ln s)

/-- RES is released (R300 phase 2): the reset sequence, refused after a pulse of fewer than two cycles (D23). RDY can
hold it at its reads of the vector (R287, R324), and it is refused where AEC takes the bus from one of them (U17). DESIGN CHOICE (assumption log 35): the sequence runs
whole; RES falling again in its six cycles shows at the boundary after it. -/
def releaseReset (ln : Lines) (s : State) : Host.Outcome State Fault Refusal :=
  if s.resCycles < 2 then .refused .resetPulseTooShort
  else if ln.aecTakesBus then .refused .busTakenDuringAccess
  else .next ((resetSequence ln.nmiLow (dropLines s)).tick ln.rdyHeld)

/-- The step function of R271, for given parameters. The accesses of the step before are forgotten first. -/
def boundary (p : Params) (s : State) : Host.Outcome State Fault Refusal :=
  let s0 := s.setAccesses []
  if 0 < (currentLines s).resLow then holdReset p (currentLines s) s0
  else if 0 < s.resCycles then releaseReset (currentLines s) s0
  else action p s0

end Sys2Proof.Machine
end

