-- ==== Sys2Proof/Machine/Step.lean ====
section
/-! DEFINITION. One step of the machine, and a state whose next step runs a given instruction. -/

namespace Sys2Proof.Machine

/-- One step: what R271 does at a boundary, under the machine's parameters. -/
def step (s : State) : Host.Outcome State Fault Refusal :=
  boundary Config.params s

/-- The state with an instruction, its bits numbered as the opcode table numbers them, loaded where the next step fetches
(assumption log 10). -/
def State.withFetchWord (s : State) (nbits w : Nat) : State :=
  let v := w % 2 ^ nbits
  loadProgram (BitVec.ofNat 8 v) (BitVec.ofNat 8 (v / 256)) (BitVec.ofNat 8 (v / 65536)) s

end Sys2Proof.Machine
end

