-- ==== Sys2Proof/Safety.lean ====
section
/-! DEFINITION. The terms in which claims speak of the machine: what a read may touch, where an instruction stores, which
instructions may write a register or a flag, when a step executes an instruction, the invariant of a sound state, and the
regularities of the cycle table. -/

namespace Sys2Proof.Machine

/-! ### Frames -/

/-- `t` is `s` but for what reading can use up or record: samples of the pins, free values, the log of accesses. All of
the registers, flags, port registers, hidden bits and memory are equal. -/
def SameButReads (s t : State) : Prop :=
  t = { s with portIn := t.portIn, draws := t.draws, accesses := t.accesses }

/-- `t` is `s` but for stored bytes (memory, DDR, the latch) and what reading uses up or records. -/
def SameButStores (s t : State) : Prop :=
  t = { s with
    mem := t.mem, ddr := t.ddr, por := t.por
    portIn := t.portIn, draws := t.draws, accesses := t.accesses }

/-- Exactly one byte was written: at `addr` the byte `v`, if the location stores (R62), and every other byte, DDR and the
latch included, holds what it held. -/
def StoredByte (addr : Word) (v : Byte) (s t : State) : Prop :=
  byteAt t addr = (if stores s addr then v else byteAt s addr) ∧ ∀ a, a ≠ addr → byteAt t a = byteAt s a

/-- No byte of memory, nor DDR or the latch, changed. -/
def SameBytes (s t : State) : Prop :=
  ∀ a, byteAt t a = byteAt s a

/-- A location whose read gives the byte stored there: not the port's data register and not a device (R61). -/
def plainRead (s : State) (addr : Word) : Bool :=
  addr != 0x0001#16 && (addr == 0x0000#16 || busKind s addr != .device)

/-- The stack page is RAM: every push is stored and every pull gives the byte stored (R23, R73). -/
def StackIsRam (s : State) : Prop :=
  ∀ sp : Byte, busKind s (stackAddr sp) = .ram

/-- The addresses an instruction stores to, in the order of its writes: the effective address of a store or a
read-modify-write, and the stack bytes of a push, JSR or BRK (R63). -/
def storeTargets (i : Instr) (s : State) : List Word :=
  match i.mnemonic, i.operand with
  | .sta, .data (.mem m) | .stx, .data (.mem m) | .sty, .data (.mem m) => [(resolve m s).addr]
  | .inc, .data (.mem m) | .dec, .data (.mem m) => [(resolve m s).addr]
  | .asl, .data (.mem m) | .lsr, .data (.mem m) | .rol, .data (.mem m) | .ror, .data (.mem m) => [(resolve m s).addr]
  | .pha, _ | .php, _ => [stackAddr s.sp]
  | .jsr, _ => [stackAddr s.sp, stackAddr (s.sp - 1)]
  | .brk, _ => [stackAddr s.sp, stackAddr (s.sp - 1), stackAddr (s.sp - 2)]
  | _, _ => []

/-- The instructions that write A (R20): every load of A, the arithmetic and logic on A, and the accumulator forms of the
shifts. -/
def writesA (i : Instr) : Bool :=
  match i.mnemonic with
  | .lda | .pla | .txa | .tya | .adc | .sbc | .and | .ora | .eor => true
  | .asl | .lsr | .rol | .ror => i.mode == .accumulator
  | _ => false

/-- The instructions that write X (R21). -/
def writesX (i : Instr) : Bool :=
  [Mnemonic.ldx, .tax, .tsx, .inx, .dex].contains i.mnemonic

/-- The instructions that write Y (R22). -/
def writesY (i : Instr) : Bool :=
  [Mnemonic.ldy, .tay, .iny, .dey].contains i.mnemonic

/-- The instructions that write SP (R23). -/
def writesSp (i : Instr) : Bool :=
  [Mnemonic.txs, .pha, .php, .pla, .plp, .jsr, .rts, .rti, .brk].contains i.mnemonic

/-- The instructions that may set PC to something else than the address of the next instruction (R26). -/
def transfersControl (i : Instr) : Bool :=
  [Mnemonic.bcc, .bcs, .beq, .bne, .bmi, .bpl, .bvc, .bvs, .jmp, .jsr, .rts, .brk, .rti].contains i.mnemonic

/-- The instructions that write N and Z (R28). -/
def writesNZ (i : Instr) : Bool :=
  [Mnemonic.lda, .ldx, .ldy, .tax, .tay, .txa, .tya, .tsx, .pla, .adc, .sbc, .and, .ora, .eor, .inc, .dec, .inx, .iny,
    .dex, .dey, .asl, .lsr, .rol, .ror, .cmp, .cpx, .cpy, .bit, .plp, .rti].contains i.mnemonic

/-- The instructions that write C (R29). -/
def writesC (i : Instr) : Bool :=
  [Mnemonic.adc, .sbc, .asl, .lsr, .rol, .ror, .cmp, .cpx, .cpy, .clc, .sec, .plp, .rti].contains i.mnemonic

/-- The instructions that write V (R29). -/
def writesV (i : Instr) : Bool :=
  [Mnemonic.adc, .sbc, .bit, .clv, .plp, .rti].contains i.mnemonic

/-- The instructions that write D (R29). -/
def writesD (i : Instr) : Bool :=
  [Mnemonic.sed, .cld, .plp, .rti].contains i.mnemonic

/-- The instructions that write I (R29). -/
def writesI (i : Instr) : Bool :=
  [Mnemonic.sei, .cli, .brk, .plp, .rti].contains i.mnemonic

/-! ### The regularities of the cycle table (R320) -/

/-- Cycles of the read forms (R320, R321). -/
def readCycles (d : DataOperand) (crossed : Bool) : Nat :=
  match d with
  | .imm _ => 2
  | .mem (.zpg _) => 3
  | .mem (.zpgX _) | .mem (.zpgY _) | .mem (.abs _) => 4
  | .mem (.absX _) | .mem (.absY _) => 4 + crossed.toNat
  | .mem (.xInd _) => 6
  | .mem (.indY _) => 5 + crossed.toNat

/-- Cycles of the store forms (R320): as the read forms, but the indexed absolute forms always 5 and (Indirect),Y
always 6. -/
def storeCycles : AddrMode → Nat
  | .zpg _ => 3
  | .zpgX _ | .zpgY _ | .abs _ => 4
  | .absX _ | .absY _ => 5
  | .xInd _ | .indY _ => 6

/-- Cycles of the read-modify-write forms by their mode (R320): Zero Page 5, Zero Page,X and Absolute 6, Absolute,X 7; no
other mode has one. -/
def modifyCycles : Mode → Nat
  | .zeroPage => 5
  | .zeroPageX | .absolute => 6
  | .absoluteX => 7
  | _ => 0

/-! ### Results, as the rules' formulas over integers give them -/

/-- N and Z of a result byte, nothing else changed (R28): N for a byte of 128 or more, Z for zero. -/
def nzOf (p : Status) (v : Byte) : Status :=
  { p with n := decide (128 ≤ v.toNat), z := decide (v.toNat = 0) }

/-- Result byte and carry of a shift or rotate of `v` with carry `c`, by the formulas of R194 to R197. -/
def shiftResult (m : Mnemonic) (v : Nat) (c : Bool) : Nat × Bool :=
  match m with
  | .asl => (v * 2 % 256, decide (128 ≤ v))
  | .lsr => (v / 2, decide (v % 2 = 1))
  | .rol => (v * 2 % 256 + c.toNat, decide (128 ≤ v))
  | .ror => (v / 2 + c.toNat * 128, decide (v % 2 = 1))
  | _ => (v, c)

/-- The test of each branch (R214 to R221). -/
def branchTaken (m : Mnemonic) (p : Status) : Bool :=
  match m with
  | .bcc => !p.c
  | .bcs => p.c
  | .bne => !p.z
  | .beq => p.z
  | .bpl => !p.n
  | .bmi => p.n
  | .bvc => !p.v
  | .bvs => p.v
  | _ => false

/-- The mnemonic has exactly these modes, with these opcode bytes (R118, R120). -/
def HasForms (m : Mnemonic) (forms : List (Mode × Byte)) : Prop :=
  (∀ i : Instr, i.mnemonic = m ↔ (i.mode, opcodeOf i) ∈ forms) ∧
    ∀ f ∈ forms, ∃ i : Instr, (i.mode, opcodeOf i) = f

/-- The eight forms that the arithmetic, logic and compare instructions on A share with LDA, from their opcode bytes. -/
def eightForms (imm zpg zpgX abs absX absY xInd indY : Byte) : List (Mode × Byte) :=
  [(.immediate, imm), (.zeroPage, zpg), (.zeroPageX, zpgX), (.absolute, abs), (.absoluteX, absX), (.absoluteY, absY),
    (.indirectX, xInd), (.indirectY, indY)]

/-- The four memory forms of the read-modify-write instructions, from their opcode bytes. -/
def fourForms (zpg zpgX abs absX : Byte) : List (Mode × Byte) :=
  [(.zeroPage, zpg), (.zeroPageX, zpgX), (.absolute, abs), (.absoluteX, absX)]

/-- A read-modify-write of the byte at `m`: `v` is read, `r` is written to the same address, one read then one write
(R68), flags `p`, the cycles of the mode. -/
def Modified (m : AddrMode) (v r : Byte) (p : Status) (s t : State) : Prop :=
  v = (memRead (resolve m s).addr (resolve m s).st).1 ∧
  SameButStores { s with p := p, cycles := s.cycles + modifyCycles m.mode } t ∧
  StoredByte (resolve m s).addr r s t ∧
  t.accesses = (resolve m s).st.accesses ++ [⟨.read, (resolve m s).addr, v⟩, ⟨.write, (resolve m s).addr, r⟩]

/-- Push a list of bytes, the first one first. -/
def pushAll (vs : List Byte) (s : State) : State :=
  vs.foldl (fun t v => push v t) s

/-- Pull `n` bytes: the bytes in the order pulled, and the state after. -/
def pullMany : Nat → State → List Byte × State
  | 0, s => ([], s)
  | n + 1, s => ((pull s).1 :: (pullMany n (pull s).2).1, (pullMany n (pull s).2).2)

/-- Three bytes pushed by an entry sequence or BRK (R277): PCH, PCL and P, downwards from SP. No other byte changes, and
on a stack in RAM the three are stored. -/
def PushedFrame (ret : Word) (status : Byte) (s t : State) : Prop :=
  (∀ a, a ∉ [stackAddr s.sp, stackAddr (s.sp - 1), stackAddr (s.sp - 2)] → byteAt t a = byteAt s a) ∧
  (StackIsRam s →
    byteAt t (stackAddr s.sp) = highByte ret ∧ byteAt t (stackAddr (s.sp - 1)) = lowByte ret ∧
      byteAt t (stackAddr (s.sp - 2)) = status)

/-- The accesses of an entry sequence or BRK, in order: the three pushes, then the vector, low byte first (R69). -/
def frameLog (ret : Word) (status : Byte) (vector : Word) (s t : State) : List Access :=
  [⟨.write, stackAddr s.sp, highByte ret⟩, ⟨.write, stackAddr (s.sp - 1), lowByte ret⟩,
    ⟨.write, stackAddr (s.sp - 2), status⟩, ⟨.read, vector, lowByte t.pc⟩, ⟨.read, vector + 1, highByte t.pc⟩]

/-- Where a vector lies in plain locations, PC is the word stored there, low byte first (R260, R64). -/
def PcFromVector (vector : Word) (s t : State) : Prop :=
  plainRead s vector = true → plainRead s (vector + 1) = true →
    t.pc = mkWord (byteAt s (vector + 1)) (byteAt s vector)

/-! ### When a step executes an instruction -/

/-- Whether the NMI detector holds or now sees an edge (R39, R271 step 1). Right after reset it does neither: an edge up
to the moment the first instruction begins is discarded (R279, D13). -/
def nmiSeen (s : State) : Bool :=
  !s.afterReset && (s.nmiPending || (s.nmiPrev && (currentLines s).nmiLow) || (currentLines s).nmiFell)

/-- RES is high and no reset is in progress. -/
def ResHigh (s : State) : Prop :=
  (currentLines s).resLow = 0 ∧ s.resCycles = 0

/-- Nothing diverts this step: it executes the instruction at PC (R271 step 4). -/
def Undisturbed (p : Params) (s : State) : Prop :=
  ResHigh s ∧ (currentLines s).aecTakesBus = false ∧
    (examinesInterrupts p s = true →
      nmiSeen s = false ∧ ((currentLines s).irqLow = false ∨ effectiveI p s = true))

/-- What a step with RES high does before its action: it clears the marks of the boundary, uses up a sample of the lines,
notes the NMI level and edge, and spends the cycles RDY holds it. -/
def actionStart (s : State) : State :=
  { s with
    iDelayed := none, afterEntry := false, afterReset := false
    lines := s.lines.tail, nmiPrev := !(currentLines s).nmiLow, nmiPending := nmiSeen s
    cycles := s.cycles + (currentLines s).rdyHeld }

/-- The bytes of an instruction stand at PC, in locations whose read gives the byte stored. -/
def BytesAtPc (i : Instr) (s : State) : Prop :=
  ∀ k, k < (encode i).length →
    plainRead s (s.pc + BitVec.ofNat 16 k) = true ∧ some (byteAt s (s.pc + BitVec.ofNat 16 k)) = (encode i)[k]?

/-- The accesses of fetching `n` bytes from an address on (R69). -/
def fetchLog (s : State) : Nat → List Access
  | 0 => []
  | n + 1 =>
    fetchLog s n ++ [⟨.read, s.pc + BitVec.ofNat 16 n, byteAt s (s.pc + BitVec.ofNat 16 n)⟩]

/-- The 105 undocumented opcode bytes as R125 lists them. -/
def undocumented (op : Byte) : Bool :=
  [0x3, 0x7, 0xB, 0xF].contains (op.toNat % 16) ||
  (op.toNat % 16 == 0x2 && op != 0xA2) ||
  [0x04, 0x14, 0x34, 0x44, 0x54, 0x64, 0x74, 0xD4, 0xF4].contains op.toNat ||
  [0x0C, 0x1C, 0x3C, 0x5C, 0x7C, 0xDC, 0xFC].contains op.toNat ||
  [0x1A, 0x3A, 0x5A, 0x7A, 0xDA, 0xFA].contains op.toNat ||
  [0x80, 0x89, 0x9C, 0x9E].contains op.toNat

/-! ### Sound states -/

/-- What every step keeps: memory is in canonical form (so no byte stands under the port); a state right after an entry
sequence is not right after CLI, SEI or PLP and has no NMI left pending (an IRQ is entered only when none is, and NMI
entry clears the bit); and a state right after reset is not right after anything else and has I set and no NMI pending. -/
def Sound (s : State) : Prop :=
  s.mem.wf = true ∧ (s.afterEntry = true → s.iDelayed = none ∧ s.nmiPending = false) ∧
    (s.afterReset = true →
      s.p.i = true ∧ s.nmiPending = false ∧ s.iDelayed = none ∧ s.afterEntry = false ∧ s.resCycles = 0)

end Sys2Proof.Machine
end

