-- ==== Sys2Proof/Certificates/Slice0/Obligations.lean ====
section
/-! DEFINITION. The statements for the provers. Each docstring says which rule or section of spec/ it formalises, or which
convention of the model it states, with its log entry. -/

open Sys2Proof Sys2Proof.Machine

/-- Formats and operand assembly (30_encoding.md sections 1, 2) and the opcode map (section 4), both directions.
Decoding and encoding are inverse on every instruction and every list of bytes. -/
def Obligations.DecodeInvertsEncode : Prop :=
  (∀ (i : Instr) (rest : List Byte), i.WellFormed → decode (encode i ++ rest) = .ok (i, rest)) ∧
  (∀ (bytes rest : List Byte) (i : Instr), decode bytes = .ok (i, rest) → i.WellFormed ∧ bytes = encode i ++ rest)

/-- The modes of each mnemonic and the operand ranges of each mode (30_encoding.md sections 3, 4). What the assembler
accepts is exactly the instructions, each from one source form. -/
def Obligations.AssemblerFormsAreTheInstructions : Prop :=
  (∀ f : SourceForm, f.wellFormed = true ↔ ∃ i : Instr, i.source = f) ∧
  (∀ i j : Instr, i.source = j.source → i = j)

/-- R101. 151 documented opcode bytes and 105 undocumented, 1 to 8 modes for each mnemonic, one opcode byte per pair. -/
def Obligations.OpcodeMapCounts : Prop :=
  ((List.range 256).filter fun n => (decodeOpcode (BitVec.ofNat 8 n)).isSome).length = 151 ∧
  ((List.range 256).filter fun n => (decodeOpcode (BitVec.ofNat 8 n)).isNone).length = 105 ∧
  (∀ m : Mnemonic, 1 ≤ m.modes.length ∧ m.modes.length ≤ 8 ∧ m.modes.Nodup) ∧
  (∀ (m : Mnemonic) (k : Mode), k ∈ m.modes →
    ∃ op, ∀ i : Instr, opcodeOf i = op ↔ i.mnemonic = m ∧ i.mode = k)

/-- R100. The opcode byte alone selects operation, mode and length, and an instruction is 1, 2 or 3 bytes. -/
def Obligations.OpcodeByteAloneSelects : Prop :=
  (∀ i : Instr, (encode i).head? = some (opcodeOf i) ∧ (encode i).length = i.mode.length ∧
    1 ≤ (encode i).length ∧ (encode i).length ≤ 3) ∧
  (∀ i j : Instr, opcodeOf i = opcodeOf j →
    i.mnemonic = j.mnemonic ∧ i.mode = j.mode ∧ (encode i).length = (encode j).length) ∧
  (∀ (op : Byte) (more rest : List Byte) (i : Instr), decode (op :: more) = .ok (i, rest) → op = opcodeOf i)

/-- Sanity, from the opcodes of the rules of each instruction; that $02 is refused is decision D6 (assumption log 25).
Eight byte strings written out from the opcode list and the operand order decode as they should. -/
def Obligations.WrittenWordsDecode : Prop :=
  decode [0xA9, 0x42] = .ok (.ldaImm 0x42, []) ∧
  decode [0xAD, 0x00, 0xC0] = .ok (.ldaAbs 0xC000, []) ∧
  decode [0xE6, 0x20] = .ok (.incZpg 0x20, []) ∧
  decode [0x6C, 0x14, 0x03] = .ok (.jmpInd 0x0314, []) ∧
  decode [0x20, 0xD2, 0xFF] = .ok (.jsr 0xFFD2, []) ∧
  decode [0xD0, 0xFD] = .ok (.bne 0xFD, []) ∧
  decode [0x00] = .ok (.brk, []) ∧
  decode [0x02] = .error (.undocumented 0x02)

/-- The spec's list of undocumented bytes (30_encoding.md section 6) and its decision D6 to refuse them. The 105
undocumented opcode bytes, and no others, are refused at their fetch. -/
def Obligations.UndocumentedOpcodesAreRefused : Prop :=
  (∀ op : Byte, (decodeOpcode op).isNone = undocumented op) ∧
  (∀ s : State, Undisturbed Config.params s → plainRead s s.pc = true → undocumented (byteAt s s.pc) = true →
    step s = .refused (.undocumentedOpcode (byteAt s s.pc)))

/-- The instruction step (00_scope.md section 5) inside the step function (60_exceptions.md section 4). A step runs
the instruction whose bytes stand at PC, with PC already past them. -/
def Obligations.StepRunsTheDecodedInstruction : Prop :=
  ∀ (i : Instr) (s : State), i.WellFormed → BytesAtPc i s →
    (∀ p : Params, Undisturbed p s → boundary p s =
      exec i { actionStart s with
        pc := s.pc + BitVec.ofNat 16 (encode i).length, accesses := fetchLog s (encode i).length }) ∧
    (Undisturbed Config.params s → step s =
      exec i { actionStart s with
        pc := s.pc + BitVec.ofNat 16 (encode i).length, accesses := fetchLog s (encode i).length })

/-- The invariant of the model over all states, not only those a run reaches. Every step from a sound state gives a
sound state. -/
def Obligations.EveryStepKeepsSound : Prop :=
  ∀ s s' : State, Sound s → step s = .next s' → Sound s'

/-- The invariant at reset. The reset state is sound. -/
def Obligations.ResetIsSound : Prop :=
  Sound State.reset

/-- Reset values (10_state.md section 8); the pending bit is R48 and decision D13 (log 21), the vector in a memory
that lists nothing log 1 and 10. In the reset state I is set, PC is the word at the reset vector, and no NMI is
pending. -/
def Obligations.ResetStateHoldsTheStatedValues : Prop :=
  State.reset.p.i = true ∧
  State.reset.pc = mkWord (byteAt State.reset 0xFFFD) (byteAt State.reset 0xFFFC) ∧
  State.reset.nmiPending = false

/-- The minimum of the cycle table; the bus map, the environment as lists and the free values are the model's
bookkeeping (assumption log 2, 4, 5, 13). Every step spends cycles, uses up one sample of the lines, takes inputs in
order and never rewinds the free values. -/
def Obligations.StepsSpendTimeAndConsumeInputs : Prop :=
  ∀ s t : State, step s = .next t →
    s.cycles < t.cycles ∧ (ResHigh s → s.cycles + 2 ≤ t.cycles) ∧ s.draws ≤ t.draws ∧ t.busMap = s.busMap ∧
      t.lines = s.lines.tail ∧ t.portIn <:+ s.portIn

/-- Phase 1 of the reset sequence; the registers in that time and the cut into steps are the model's choice
(assumption log 22, 33). While RES is low nothing is executed and nothing changes but time and the marks of the last
step. -/
def Obligations.ResHoldsTheProcessor : Prop :=
  ∀ (p : Params) (s : State), 0 < (currentLines s).resLow → (0 < s.resCycles ∨ (currentLines s).resAfter = 0) →
    boundary p s = .next { s with
      accesses := [], iDelayed := none, afterEntry := false, afterReset := false, lines := s.lines.tail
      resCycles := s.resCycles + (currentLines s).resLow
      cycles := s.cycles + ((currentLines s).resLow + (currentLines s).rdyHeld) }

/-- RES in mid-instruction. An action abandoned by RES leaves exactly the stores of a prefix of its accesses. -/
def Obligations.AbandonedActionLeavesAPrefix : Prop :=
  ∀ (p : Params) (s u : State), 0 < (currentLines s).resLow → s.resCycles = 0 → 0 < (currentLines s).resAfter →
    action p (s.setAccesses []) = .next u →
    ∃ t, boundary p s = .next t ∧ t.accesses = u.accesses.take (currentLines s).resAfter ∧
      t.lines = s.lines.tail ∧ t.resCycles = (currentLines s).resLow ∧
      (∀ a, (∀ acc ∈ t.accesses, acc.kind = .write → acc.addr ≠ a) → byteAt t a = byteAt s a) ∧
      (∀ pre acc post, t.accesses = pre ++ acc :: post → acc.kind = .write → stores s acc.addr = true →
        (∀ b ∈ post, b.kind = .write → b.addr ≠ acc.addr) → byteAt t acc.addr = acc.val)

/-- Phase 2 of the reset sequence; the NMI detector is decision D13 (log 9, 21), SP, DDR and POR decisions D4 and D5
(log 7, 8), that it runs whole the model's choice (log 35). The release of RES sets I, loads PC from the reset vector
and writes nothing. -/
def Obligations.ReleaseRunsTheResetSequence : Prop :=
  ∀ (p : Params) (s : State), (currentLines s).resLow = 0 → 2 ≤ s.resCycles → (currentLines s).aecTakesBus = false →
    ∃ t, boundary p s = .next t ∧ t.p.i = true ∧
      (plainRead s 0xFFFC = true → plainRead s 0xFFFD = true →
        t.pc = mkWord (byteAt s 0xFFFD) (byteAt s 0xFFFC)) ∧
      t.accesses = [⟨.read, 0xFFFC, lowByte t.pc⟩, ⟨.read, 0xFFFD, highByte t.pc⟩] ∧
      t.nmiPending = false ∧ t.nmiPrev = !(currentLines s).nmiLow ∧ t.mem = s.mem ∧ t.resCycles = 0 ∧
      t.iDelayed = none ∧ t.afterEntry = false ∧ t.afterReset = true ∧
      t.sp = Config.resetSp ∧ t.ddr = Config.resetDdr ∧ t.por = Config.resetPor ∧
      t.lines = s.lines.tail ∧ t.cycles = s.cycles + (currentLines s).rdyHeld + 6

/-- Inputs the spec gives no behaviour for (decision D23, U17; assumption log 23, 26). A RES pulse of one cycle is
refused, and AEC taking a bus from any action or from the reset sequence. -/
def Obligations.InputsOutsideTheModelAreRefused : Prop :=
  (∀ (p : Params) (s : State), (currentLines s).resLow = 0 → s.resCycles = 1 →
    boundary p s = .refused .resetPulseTooShort) ∧
  (∀ (p : Params) (s : State), ResHigh s → (currentLines s).aecTakesBus = true →
    boundary p s = .refused .busTakenDuringAccess) ∧
  (∀ (p : Params) (s : State), (currentLines s).resLow = 0 → 2 ≤ s.resCycles → (currentLines s).aecTakesBus = true →
    boundary p s = .refused .busTakenDuringAccess)

/-- NMI entry (60_exceptions.md section 5); bit 4 of the pushed P clear is decision D8 (assumption log 14). A pending
NMI is entered: PC and P pushed, the pending bit cleared, PC from $FFFA. -/
def Obligations.NmiEntryAtABoundary : Prop :=
  ∀ (p : Params) (s : State), ResHigh s → examinesInterrupts p s = true → (currentLines s).aecTakesBus = false →
    nmiSeen s = true →
    ∃ t, boundary p s = .next t ∧
      SameButStores
        { s with
          lines := s.lines.tail, nmiPrev := !(currentLines s).nmiLow, nmiPending := false
          iDelayed := none, afterEntry := true, afterReset := false, sp := s.sp - 3
          p := { s.p with i := s.p.i || p.nmiSetsI }
          pc := t.pc, cycles := s.cycles + (currentLines s).rdyHeld + 7 } t ∧
      t.accesses = frameLog s.pc (statusByte s.p false) 0xFFFA s t ∧
      PushedFrame s.pc (statusByte s.p false) s t ∧ PcFromVector 0xFFFA s t

/-- IRQ entry (60_exceptions.md section 5); bit 4 of the pushed P clear is decision D8 (assumption log 14). A low IRQ
line with I_eff clear is entered: PC and P pushed, I set, PC from $FFFE. -/
def Obligations.IrqEntryAtABoundary : Prop :=
  ∀ (p : Params) (s : State), ResHigh s → examinesInterrupts p s = true → (currentLines s).aecTakesBus = false →
    nmiSeen s = false → (currentLines s).irqLow = true → effectiveI p s = false →
    ∃ t, boundary p s = .next t ∧
      SameButStores
        { s with
          lines := s.lines.tail, nmiPrev := !(currentLines s).nmiLow, nmiPending := false
          iDelayed := none, afterEntry := true, afterReset := false, sp := s.sp - 3
          p := { s.p with i := true }
          pc := t.pc, cycles := s.cycles + (currentLines s).rdyHeld + 7 } t ∧
      t.accesses = frameLog s.pc (statusByte s.p false) 0xFFFE s t ∧
      PushedFrame s.pc (statusByte s.p false) s t ∧ PcFromVector 0xFFFE s t

/-- Recognition and priority at a boundary. With RES high, a step is an interrupt entry exactly when an NMI is seen or
an unmasked IRQ is low. -/
def Obligations.EntriesExactlyWhenDue : Prop :=
  ∀ (p : Params) (s t : State), ResHigh s → boundary p s = .next t →
    (t.afterEntry = true ↔
      examinesInterrupts p s = true ∧
        (nmiSeen s = true ∨ ((currentLines s).irqLow = true ∧ effectiveI p s = false)))

/-- The parameter IRQ_MASK_LATENCY (decision D19, assumption log 11). With latency 1 the boundary after CLI, SEI or
PLP uses the old I; every other boundary uses P.I. -/
def Obligations.OnlyCliSeiPlpDelayTheMask : Prop :=
  (∀ (p : Params) (i : Instr) (s : State), Undisturbed p s → BytesAtPc i s →
    ∃ t, boundary p s = .next t ∧
      effectiveI p t =
        (if p.irqMaskLatency = true ∧ (i.mnemonic = .cli ∨ i.mnemonic = .sei ∨ i.mnemonic = .plp) then s.p.i
        else t.p.i)) ∧
  (∀ (p : Params) (s t : State), boundary p s = .next t →
    effectiveI p t = t.p.i ∨
      (p.irqMaskLatency = true ∧ Undisturbed p s ∧ effectiveI p t = s.p.i ∧
        ∃ f, fetch (actionStart (s.setAccesses [])) = .ok f ∧
          (f.1.mnemonic = .cli ∨ f.1.mnemonic = .sei ∨ f.1.mnemonic = .plp)))

/-- R247. BRK pushes pc0 + 2 and P with bit 4 set, sets I, and loads PC from $FFFE. -/
def Obligations.BrkTakesItsException : Prop :=
  encode .brk = [0x00] ∧
  ∀ s : State, ∃ t, exec .brk s = .next t ∧
    SameButStores
      { s with sp := s.sp - 3, p := { s.p with i := true }, pc := t.pc, cycles := s.cycles + 7 } t ∧
    t.accesses = s.accesses ++ frameLog (s.pc + 1) (statusByte s.p true) 0xFFFE s t ∧
    PushedFrame (s.pc + 1) (statusByte s.p true) s t ∧ PcFromVector 0xFFFE s t

/-- R249, R34. RTI pulls P, then PC low and high, and continues at exactly that address; PLP pulls P alike. -/
def Obligations.RtiReturns : Prop :=
  encode .rti = [0x40] ∧
  (∀ s : State, ∃ (t : State) (v : Byte), exec .rti s = .next t ∧
    SameButReads
      { s with
        sp := s.sp + 3, pc := t.pc, cycles := s.cycles + 6
        p := { n := v.toNat.testBit 7, v := v.toNat.testBit 6, d := v.toNat.testBit 3
               i := v.toNat.testBit 2, z := v.toNat.testBit 1, c := v.toNat.testBit 0 } } t ∧
    t.accesses = s.accesses ++ [⟨.read, stackAddr (s.sp + 1), v⟩, ⟨.read, stackAddr (s.sp + 2), lowByte t.pc⟩,
      ⟨.read, stackAddr (s.sp + 3), highByte t.pc⟩] ∧
    (plainRead s (stackAddr (s.sp + 1)) = true → v = byteAt s (stackAddr (s.sp + 1))) ∧
    (plainRead s (stackAddr (s.sp + 2)) = true → plainRead s (stackAddr (s.sp + 3)) = true →
      t.pc = mkWord (byteAt s (stackAddr (s.sp + 3))) (byteAt s (stackAddr (s.sp + 2))))) ∧
  (∀ s : State, ∃ t, exec .plp s = .next t ∧
    t.p.n = (pull s).1.toNat.testBit 7 ∧ t.p.v = (pull s).1.toNat.testBit 6 ∧ t.p.d = (pull s).1.toNat.testBit 3 ∧
    t.p.i = (pull s).1.toNat.testBit 2 ∧ t.p.z = (pull s).1.toNat.testBit 1 ∧ t.p.c = (pull s).1.toNat.testBit 0)

/-- RTI as the inverse of the entry sequences. RTI after BRK, and after any entry sequence, restores P, PC and SP. -/
def Obligations.ReturnUndoesEntry : Prop :=
  (∀ (s : State) (w : Word), StackIsRam s →
    ∃ t u, exec .brk s = .next t ∧ exec .rti { t with pc := w } = .next u ∧
      SameButStores { s with pc := s.pc + 1, cycles := s.cycles + 13 } u ∧
        ∀ a, a ∉ [stackAddr s.sp, stackAddr (s.sp - 1), stackAddr (s.sp - 2)] → byteAt u a = byteAt s a) ∧
  (∀ (vector w : Word) (brk setsI : Bool) (s : State), StackIsRam s →
    let u := returnFromException { takeException vector brk setsI s with pc := w }
    SameButStores { s with cycles := s.cycles + 13 } u ∧
      ∀ a, a ∉ [stackAddr s.sp, stackAddr (s.sp - 1), stackAddr (s.sp - 2)] → byteAt u a = byteAt s a)

/-- The layout of P and the two bits without storage. The pushed P byte has bit 5 set, bit 4 as given, and the six
flags at their bits. -/
def Obligations.StatusByteLayout : Prop :=
  (∀ (p : Status) (b : Bool), (statusByte p b).toNat =
    p.n.toNat * 128 + p.v.toNat * 64 + 32 + b.toNat * 16 + p.d.toNat * 8 + p.i.toNat * 4 + p.z.toNat * 2 + p.c.toNat) ∧
  (∀ (p : Status) (b : Bool), statusOfByte (statusByte p b) = p) ∧
  (∀ (v : Byte) (b : Bool), statusByte (statusOfByte v) b = (v &&& 0xCF) ||| 0x20 ||| (if b then 0x10 else 0x00))

/-- R156, R158. PHA writes A at $0100+SP and decrements SP; PLA increments SP and loads A with N and Z. -/
def Obligations.PhaPushesAndPlaPulls : Prop :=
  encode .pha = [0x48] ∧ encode .pla = [0x68] ∧
  (∀ s : State, ∃ t, exec .pha s = .next t ∧
    SameButStores { s with sp := s.sp - 1, cycles := s.cycles + 3 } t ∧
    StoredByte (stackAddr s.sp) s.a s t ∧ t.accesses = s.accesses ++ [⟨.write, stackAddr s.sp, s.a⟩]) ∧
  (∀ s : State, ∃ (t : State) (v : Byte), exec .pla s = .next t ∧
    SameButReads { s with sp := s.sp + 1, a := v, p := nzOf s.p v, cycles := s.cycles + 4 } t ∧
    t.accesses = s.accesses ++ [⟨.read, stackAddr (s.sp + 1), v⟩] ∧
    (plainRead s (stackAddr (s.sp + 1)) = true → v = byteAt s (stackAddr (s.sp + 1))))

/-- PHP and PLP. PHP pushes P with bits 5 and 4 set; PLP pulls all six flags and leaves the old I for one boundary. -/
def Obligations.PhpPushesAndPlpPulls : Prop :=
  encode .php = [0x08] ∧ encode .plp = [0x28] ∧
  (∀ s : State, ∃ t, exec .php s = .next t ∧
    SameButStores { s with sp := s.sp - 1, cycles := s.cycles + 3 } t ∧
    StoredByte (stackAddr s.sp) (statusByte s.p true) s t ∧
    t.accesses = s.accesses ++ [⟨.write, stackAddr s.sp, statusByte s.p true⟩]) ∧
  (∀ s : State, ∃ (t : State) (v : Byte), exec .plp s = .next t ∧
    SameButReads
      { s with sp := s.sp + 1, p := statusOfByte v, iDelayed := some s.p.i, cycles := s.cycles + 4 } t ∧
    t.accesses = s.accesses ++ [⟨.read, stackAddr (s.sp + 1), v⟩] ∧
    (plainRead s (stackAddr (s.sp + 1)) = true → v = byteAt s (stackAddr (s.sp + 1))))

/-- Laws (a) to (d) of 41_transfer_stack.md section 3. PHA;PLA keeps A and SP and sets N and Z from A; PHP;PLP keeps
all flags and SP; PHP;PLA gives PByte(1). -/
def Obligations.PushThenPullRestores : Prop :=
  (∀ s : State, StackIsRam s →
    ∃ t u, exec .pha s = .next t ∧ exec .pla t = .next u ∧
      SameButStores { s with p := nzOf s.p s.a, cycles := s.cycles + 7 } u ∧
      ∀ a, a ≠ stackAddr s.sp → byteAt u a = byteAt s a) ∧
  (∀ s : State, StackIsRam s →
    ∃ t u, exec .php s = .next t ∧ exec .plp t = .next u ∧
      SameButStores { s with iDelayed := some s.p.i, cycles := s.cycles + 7 } u) ∧
  (∀ s : State, StackIsRam s →
    ∃ t u, exec .php s = .next t ∧ exec .pla t = .next u ∧ u.a = statusByte s.p true ∧ u.sp = s.sp) ∧
  (∀ s : State, ∃ t u, exec .tsx s = .next t ∧ exec .txs t = .next u ∧ u.sp = s.sp)

/-- The stack discipline, with its silent wrap. As many pulls as pushes bring SP back, and on a stack in RAM give up
to 256 bytes back in reverse. -/
def Obligations.PullsReverseThePushes : Prop :=
  ∀ (vs : List Byte) (s : State),
    (pullMany vs.length (pushAll vs s)).2.sp = s.sp ∧
    (StackIsRam s → vs.length ≤ 256 → (pullMany vs.length (pushAll vs s)).1 = vs.reverse)

/-- JSR. JSR pushes the address of its last byte, high byte first, and jumps. -/
def Obligations.JsrPushesTheReturnAddress : Prop :=
  (∀ w : Word, encode (.jsr w) = [0x20, lowByte w, highByte w]) ∧
  ∀ (w : Word) (s : State), ∃ t, exec (.jsr w) s = .next t ∧
    SameButStores { s with sp := s.sp - 2, pc := w, cycles := s.cycles + 6 } t ∧
    t.accesses = s.accesses ++ [⟨.write, stackAddr s.sp, highByte (s.pc - 1)⟩,
      ⟨.write, stackAddr (s.sp - 1), lowByte (s.pc - 1)⟩] ∧
    (∀ a, a ≠ stackAddr s.sp → a ≠ stackAddr (s.sp - 1) → byteAt t a = byteAt s a) ∧
    (StackIsRam s → byteAt t (stackAddr s.sp) = highByte (s.pc - 1) ∧
      byteAt t (stackAddr (s.sp - 1)) = lowByte (s.pc - 1))

/-- R232. RTS pulls PCL then PCH and continues one past the address pulled. -/
def Obligations.RtsReturnsPastTheAddress : Prop :=
  encode .rts = [0x60] ∧
  ∀ s : State, ∃ t, exec .rts s = .next t ∧
    SameButReads { s with sp := s.sp + 2, pc := t.pc, cycles := s.cycles + 6 } t ∧
    t.accesses = s.accesses ++ [⟨.read, stackAddr (s.sp + 1), lowByte (t.pc - 1)⟩,
      ⟨.read, stackAddr (s.sp + 2), highByte (t.pc - 1)⟩] ∧
    (plainRead s (stackAddr (s.sp + 1)) = true → plainRead s (stackAddr (s.sp + 2)) = true →
      t.pc = mkWord (byteAt s (stackAddr (s.sp + 2))) (byteAt s (stackAddr (s.sp + 1))) + 1)

/-- Law (b) of the jump file. JSR followed by RTS resumes after the JSR and changes only the two stack bytes below SP. -/
def Obligations.JsrThenRtsResumes : Prop :=
  ∀ (s : State) (w r : Word), StackIsRam s →
    ∃ t u, exec (.jsr w) s = .next t ∧ exec .rts { t with pc := r } = .next u ∧
      SameButStores { s with cycles := s.cycles + 12 } u ∧
      ∀ a, a ≠ stackAddr s.sp → a ≠ stackAddr (s.sp - 1) → byteAt u a = byteAt s a

/-- R140 to R142. LDA, LDX and LDY put the operand in their register and set N and Z from it. -/
def Obligations.LoadsTakeTheOperand : Prop :=
  (HasForms .lda (eightForms 0xA9 0xA5 0xB5 0xAD 0xBD 0xB9 0xA1 0xB1) ∧
    ∀ (i : Instr) (s : State), i.mnemonic = .lda → ∃ d t, i.operand = .data d ∧ exec i s = .next t ∧
      SameButReads
        { s with
          a := (readData d s).val, p := nzOf s.p (readData d s).val
          cycles := s.cycles + readCycles d (readData d s).crossed } t ∧
      t.accesses = (readData d s).st.accesses) ∧
  (HasForms .ldx [(.immediate, 0xA2), (.zeroPage, 0xA6), (.zeroPageY, 0xB6), (.absolute, 0xAE), (.absoluteY, 0xBE)] ∧
    ∀ (i : Instr) (s : State), i.mnemonic = .ldx → ∃ d t, i.operand = .data d ∧ exec i s = .next t ∧
      SameButReads
        { s with
          x := (readData d s).val, p := nzOf s.p (readData d s).val
          cycles := s.cycles + readCycles d (readData d s).crossed } t ∧
      t.accesses = (readData d s).st.accesses) ∧
  (HasForms .ldy [(.immediate, 0xA0), (.zeroPage, 0xA4), (.zeroPageX, 0xB4), (.absolute, 0xAC), (.absoluteX, 0xBC)] ∧
    ∀ (i : Instr) (s : State), i.mnemonic = .ldy → ∃ d t, i.operand = .data d ∧ exec i s = .next t ∧
      SameButReads
        { s with
          y := (readData d s).val, p := nzOf s.p (readData d s).val
          cycles := s.cycles + readCycles d (readData d s).crossed } t ∧
      t.accesses = (readData d s).st.accesses)

/-- R143 to R145. STA, STX and STY write their register at the effective address and change no flag or register. -/
def Obligations.StoresWriteTheRegister : Prop :=
  (HasForms .sta [(.zeroPage, 0x85), (.zeroPageX, 0x95), (.absolute, 0x8D), (.absoluteX, 0x9D),
      (.absoluteY, 0x99), (.indirectX, 0x81), (.indirectY, 0x91)] ∧
    ∀ (i : Instr) (s : State), i.mnemonic = .sta → ∃ m t, i.operand = .data (.mem m) ∧ exec i s = .next t ∧
      SameButStores { s with cycles := s.cycles + storeCycles m } t ∧
      StoredByte (resolve m s).addr s.a s t ∧
      t.accesses = (resolve m s).st.accesses ++ [⟨.write, (resolve m s).addr, s.a⟩]) ∧
  (HasForms .stx [(.zeroPage, 0x86), (.zeroPageY, 0x96), (.absolute, 0x8E)] ∧
    ∀ (i : Instr) (s : State), i.mnemonic = .stx → ∃ m t, i.operand = .data (.mem m) ∧ exec i s = .next t ∧
      SameButStores { s with cycles := s.cycles + storeCycles m } t ∧
      StoredByte (resolve m s).addr s.x s t ∧
      t.accesses = (resolve m s).st.accesses ++ [⟨.write, (resolve m s).addr, s.x⟩]) ∧
  (HasForms .sty [(.zeroPage, 0x84), (.zeroPageX, 0x94), (.absolute, 0x8C)] ∧
    ∀ (i : Instr) (s : State), i.mnemonic = .sty → ∃ m t, i.operand = .data (.mem m) ∧ exec i s = .next t ∧
      SameButStores { s with cycles := s.cycles + storeCycles m } t ∧
      StoredByte (resolve m s).addr s.y s t ∧
      t.accesses = (resolve m s).st.accesses ++ [⟨.write, (resolve m s).addr, s.y⟩])

/-- R150 to R155. The six transfers copy their source register, with N and Z from it, but for TXS which writes no
flag. -/
def Obligations.TransfersCopyTheRegister : Prop :=
  (encode .tax = [0xAA] ∧ ∀ s : State,
    exec .tax s = .next { s with x := s.a, p := nzOf s.p s.a, cycles := s.cycles + 2 }) ∧
  (encode .tay = [0xA8] ∧ ∀ s : State,
    exec .tay s = .next { s with y := s.a, p := nzOf s.p s.a, cycles := s.cycles + 2 }) ∧
  (encode .txa = [0x8A] ∧ ∀ s : State,
    exec .txa s = .next { s with a := s.x, p := nzOf s.p s.x, cycles := s.cycles + 2 }) ∧
  (encode .tya = [0x98] ∧ ∀ s : State,
    exec .tya s = .next { s with a := s.y, p := nzOf s.p s.y, cycles := s.cycles + 2 }) ∧
  (encode .tsx = [0xBA] ∧ ∀ s : State,
    exec .tsx s = .next { s with x := s.sp, p := nzOf s.p s.sp, cycles := s.cycles + 2 }) ∧
  (encode .txs = [0x9A] ∧ ∀ s : State,
    exec .txs s = .next { s with sp := s.x, cycles := s.cycles + 2 })

/-- ADC for D = 0; the condition of V is decision D25 (assumption log 19). ADC with D clear: A + M + C modulo 256, C
for a carry out, V for a signed overflow, N and Z from the sum. -/
def Obligations.AdcAddsBinary : Prop :=
  HasForms .adc (eightForms 0x69 0x65 0x75 0x6D 0x7D 0x79 0x61 0x71) ∧
  ∀ (i : Instr) (s : State), i.mnemonic = .adc → s.p.d = false →
    ∃ (d : DataOperand) (t : State) (r : Byte), i.operand = .data d ∧ exec i s = .next t ∧
      r.toNat = (s.a.toNat + (readData d s).val.toNat + s.p.c.toNat) % 256 ∧
      SameButReads
        { s with
          a := r
          p := { nzOf s.p r with
            c := decide (256 ≤ s.a.toNat + (readData d s).val.toNat + s.p.c.toNat)
            v := decide (s.a.toInt + (readData d s).val.toInt + s.p.c.toNat < -128 ∨
              127 < s.a.toInt + (readData d s).val.toInt + s.p.c.toNat) }
          cycles := s.cycles + readCycles d (readData d s).crossed } t ∧
      t.accesses = (readData d s).st.accesses

/-- SBC for D = 0. SBC with D clear: A - M - (1 - C) modulo 256, C for no borrow, V for a signed overflow. -/
def Obligations.SbcSubtractsBinary : Prop :=
  HasForms .sbc (eightForms 0xE9 0xE5 0xF5 0xED 0xFD 0xF9 0xE1 0xF1) ∧
  ∀ (i : Instr) (s : State), i.mnemonic = .sbc → s.p.d = false →
    ∃ (d : DataOperand) (t : State) (r : Byte), i.operand = .data d ∧ exec i s = .next t ∧
      (r.toNat : Int) = ((s.a.toNat : Int) - (readData d s).val.toNat - (1 - s.p.c.toNat)) % 256 ∧
      SameButReads
        { s with
          a := r
          p := { nzOf s.p r with
            c := decide ((readData d s).val.toNat + (1 - s.p.c.toNat) ≤ s.a.toNat)
            v := decide (s.a.toInt - (readData d s).val.toInt - (1 - s.p.c.toNat) < -128 ∨
              127 < s.a.toInt - (readData d s).val.toInt - (1 - s.p.c.toNat)) }
          cycles := s.cycles + readCycles d (readData d s).crossed } t ∧
      t.accesses = (readData d s).st.accesses

/-- Decimal mode on valid BCD operands. ADC and SBC with D set on BCD operands give the decimal sum or difference and
its carry. -/
def Obligations.DecimalArithmeticOnBcd : Prop :=
  (∀ (i : Instr) (s : State), i.mnemonic = .adc → s.p.d = true →
    ∃ d, i.operand = .data d ∧ (validBcd s.a = true → validBcd (readData d s).val = true →
      ∃ (t : State) (r : Byte) (n v z : Bool), exec i s = .next t ∧ validBcd r = true ∧
        bcd r = (bcd s.a + bcd (readData d s).val + s.p.c.toNat) % 100 ∧
        SameButReads
          { s with
            a := r, p := { s.p with n := n, v := v, z := z, c := decide (100 ≤ bcd s.a + bcd (readData d s).val + s.p.c.toNat) }
            cycles := s.cycles + readCycles d (readData d s).crossed } t ∧
        t.accesses = (readData d s).st.accesses)) ∧
  (∀ (i : Instr) (s : State), i.mnemonic = .sbc → s.p.d = true →
    ∃ d, i.operand = .data d ∧ (validBcd s.a = true → validBcd (readData d s).val = true →
      ∃ (t : State) (r : Byte) (n v z : Bool), exec i s = .next t ∧ validBcd r = true ∧
        (bcd r : Int) = ((bcd s.a : Int) - bcd (readData d s).val - (1 - s.p.c.toNat)) % 100 ∧
        SameButReads
          { s with
            a := r, p := { s.p with n := n, v := v, z := z, c := decide (bcd (readData d s).val + (1 - s.p.c.toNat) ≤ bcd s.a) }
            cycles := s.cycles + readCycles d (readData d s).crossed } t ∧
        t.accesses = (readData d s).st.accesses))

/-- Decimal mode on other bytes. ADC and SBC with D set on bytes that are not BCD complete with free A, N, V, Z, C and
change nothing else. -/
def Obligations.DecimalArithmeticOnOtherBytes : Prop :=
  ∀ (i : Instr) (s : State), (i.mnemonic = .adc ∨ i.mnemonic = .sbc) → s.p.d = true →
    ∃ d, i.operand = .data d ∧ ((validBcd s.a && validBcd (readData d s).val) = false →
      ∃ (t : State) (r : Byte) (n v z c : Bool), exec i s = .next t ∧
        SameButReads
          { s with
            a := r, p := { s.p with n := n, v := v, z := z, c := c }
            cycles := s.cycles + readCycles d (readData d s).crossed } t ∧
        t.accesses = (readData d s).st.accesses)

/-- The equivalences of 42_arithmetic.md section 1 and 44_compare_branch.md; C and V of SBC are decision D25
(assumption log 19). With D clear SBC #M does what ADC #(M XOR $FF) does, and SEC then SBC #M sets N, Z and C as CMP
#M does. -/
def Obligations.SbcIsAdcOfTheComplement : Prop :=
  ∀ (m : Byte) (s : State), s.p.d = false →
    (∃ t, exec (.sbcImm m) s = .next t ∧ exec (.adcImm (m ^^^ 0xFF)) s = .next t) ∧
    (∃ t u v, exec .sec s = .next t ∧ exec (.sbcImm m) t = .next u ∧ exec (.cmpImm m) s = .next v ∧
      u.p.n = v.p.n ∧ u.p.z = v.p.z ∧ u.p.c = v.p.c)

/-- Laws (a), (b) and (e) of the binary arithmetic. CLC;ADC and SEC;SBC are exact with C as ninth bit, and the carry
chains two bytes to a 16-bit sum or difference. -/
def Obligations.CarryChainsWideArithmetic : Prop :=
  (∀ (m : Byte) (s : State), s.p.d = false →
    ∃ t u, exec .clc s = .next t ∧ exec (.adcImm m) t = .next u ∧
      256 * u.p.c.toNat + u.a.toNat = s.a.toNat + m.toNat) ∧
  (∀ (m : Byte) (s : State), s.p.d = false →
    ∃ t u, exec .sec s = .next t ∧ exec (.sbcImm m) t = .next u ∧
      (u.a.toNat : Int) - 256 * (1 - u.p.c.toNat) = (s.a.toNat : Int) - m.toNat) ∧
  (∀ (v w : Word) (c : Bool),
    let lo := addBinary (lowByte v) (lowByte w) c
    let hi := addBinary (highByte v) (highByte w) lo.carry
    65536 * hi.carry.toNat + (mkWord hi.val lo.val).toNat = v.toNat + w.toNat + c.toNat) ∧
  (∀ v w : Word,
    let lo := subBinary (lowByte v) (lowByte w) true
    let hi := subBinary (highByte v) (highByte w) lo.carry
    mkWord hi.val lo.val = v - w ∧ hi.carry = decide (w.toNat ≤ v.toNat))

/-- R174, R175. INC and DEC read the byte at the effective address, write it back plus or minus one, and set N and Z. -/
def Obligations.IncAndDecModifyMemory : Prop :=
  (HasForms .inc (fourForms 0xE6 0xF6 0xEE 0xFE) ∧
    ∀ (i : Instr) (s : State), i.mnemonic = .inc → ∃ (m : AddrMode) (t : State) (v r : Byte),
      i.operand = .data (.mem m) ∧ exec i s = .next t ∧ r.toNat = (v.toNat + 1) % 256 ∧
      Modified m v r (nzOf s.p r) s t) ∧
  (HasForms .dec (fourForms 0xC6 0xD6 0xCE 0xDE) ∧
    ∀ (i : Instr) (s : State), i.mnemonic = .dec → ∃ (m : AddrMode) (t : State) (v r : Byte),
      i.operand = .data (.mem m) ∧ exec i s = .next t ∧ r.toNat = (v.toNat + 255) % 256 ∧
      Modified m v r (nzOf s.p r) s t)

/-- R176 to R179. INX, INY, DEX and DEY count modulo 256 and set N and Z alone. -/
def Obligations.IndexRegistersCount : Prop :=
  (encode .inx = [0xE8] ∧ ∀ s : State, ∃ r : Byte, r.toNat = (s.x.toNat + 1) % 256 ∧
    exec .inx s = .next { s with x := r, p := nzOf s.p r, cycles := s.cycles + 2 }) ∧
  (encode .iny = [0xC8] ∧ ∀ s : State, ∃ r : Byte, r.toNat = (s.y.toNat + 1) % 256 ∧
    exec .iny s = .next { s with y := r, p := nzOf s.p r, cycles := s.cycles + 2 }) ∧
  (encode .dex = [0xCA] ∧ ∀ s : State, ∃ r : Byte, r.toNat = (s.x.toNat + 255) % 256 ∧
    exec .dex s = .next { s with x := r, p := nzOf s.p r, cycles := s.cycles + 2 }) ∧
  (encode .dey = [0x88] ∧ ∀ s : State, ∃ r : Byte, r.toNat = (s.y.toNat + 255) % 256 ∧
    exec .dey s = .next { s with y := r, p := nzOf s.p r, cycles := s.cycles + 2 })

/-- R190 to R192. AND, ORA and EOR combine A with the operand bit by bit and set N and Z from the new A. -/
def Obligations.LogicIsBitwise : Prop :=
  (HasForms .and (eightForms 0x29 0x25 0x35 0x2D 0x3D 0x39 0x21 0x31) ∧
    ∀ (i : Instr) (s : State), i.mnemonic = .and → ∃ (d : DataOperand) (t : State) (r : Byte),
      i.operand = .data d ∧ exec i s = .next t ∧
      (∀ k, r.toNat.testBit k = (s.a.toNat.testBit k && (readData d s).val.toNat.testBit k)) ∧
      SameButReads
        { s with a := r, p := nzOf s.p r, cycles := s.cycles + readCycles d (readData d s).crossed } t ∧
      t.accesses = (readData d s).st.accesses) ∧
  (HasForms .ora (eightForms 0x09 0x05 0x15 0x0D 0x1D 0x19 0x01 0x11) ∧
    ∀ (i : Instr) (s : State), i.mnemonic = .ora → ∃ (d : DataOperand) (t : State) (r : Byte),
      i.operand = .data d ∧ exec i s = .next t ∧
      (∀ k, r.toNat.testBit k = (s.a.toNat.testBit k || (readData d s).val.toNat.testBit k)) ∧
      SameButReads
        { s with a := r, p := nzOf s.p r, cycles := s.cycles + readCycles d (readData d s).crossed } t ∧
      t.accesses = (readData d s).st.accesses) ∧
  (HasForms .eor (eightForms 0x49 0x45 0x55 0x4D 0x5D 0x59 0x41 0x51) ∧
    ∀ (i : Instr) (s : State), i.mnemonic = .eor → ∃ (d : DataOperand) (t : State) (r : Byte),
      i.operand = .data d ∧ exec i s = .next t ∧
      (∀ k, r.toNat.testBit k = Bool.xor (s.a.toNat.testBit k) ((readData d s).val.toNat.testBit k)) ∧
      SameButReads
        { s with a := r, p := nzOf s.p r, cycles := s.cycles + readCycles d (readData d s).crossed } t ∧
      t.accesses = (readData d s).st.accesses)

/-- R193. BIT copies bits 7 and 6 of the operand to N and V and sets Z from A AND M, changing nothing else. -/
def Obligations.BitTestsMemory : Prop :=
  HasForms .bit [(.zeroPage, 0x24), (.absolute, 0x2C)] ∧
  ∀ (i : Instr) (s : State), i.mnemonic = .bit → ∃ (m : AddrMode) (t : State) (v : Byte),
    i.operand = .data (.mem m) ∧ exec i s = .next t ∧ v = (memRead (resolve m s).addr (resolve m s).st).1 ∧
    SameButReads
      { s with
        p := { s.p with
          n := v.toNat.testBit 7, v := v.toNat.testBit 6, z := decide (s.a.toNat &&& v.toNat = 0) }
        cycles := s.cycles + readCycles (.mem m) false } t ∧
    t.accesses = (resolve m s).st.accesses ++ [⟨.read, (resolve m s).addr, v⟩]

/-- R194 to R197. ASL, LSR, ROL and ROR give the rules' result byte and carry, in A or in memory, with N and Z from
it. -/
def Obligations.ShiftsAndRotates : Prop :=
  HasForms .asl ((.accumulator, 0x0A) :: fourForms 0x06 0x16 0x0E 0x1E) ∧
  HasForms .lsr ((.accumulator, 0x4A) :: fourForms 0x46 0x56 0x4E 0x5E) ∧
  HasForms .rol ((.accumulator, 0x2A) :: fourForms 0x26 0x36 0x2E 0x3E) ∧
  HasForms .ror ((.accumulator, 0x6A) :: fourForms 0x66 0x76 0x6E 0x7E) ∧
  (∀ (i : Instr) (s : State), i.mnemonic ∈ [Mnemonic.asl, .lsr, .rol, .ror] →
    (i.operand = .accumulator ∧ ∃ r : Byte, r.toNat = (shiftResult i.mnemonic s.a.toNat s.p.c).1 ∧
      exec i s = .next { s with
        a := r, p := { nzOf s.p r with c := (shiftResult i.mnemonic s.a.toNat s.p.c).2 }
        cycles := s.cycles + 2 }) ∨
    (∃ (m : AddrMode) (t : State) (v r : Byte), i.operand = .data (.mem m) ∧ exec i s = .next t ∧
      r.toNat = (shiftResult i.mnemonic v.toNat s.p.c).1 ∧
      Modified m v r { nzOf s.p r with c := (shiftResult i.mnemonic v.toNat s.p.c).2 } s t))

/-- Law (b) of the shift file. ROL then ROR restores the byte and the carry, in A and in RAM; ASL then LSR clears bit
7 alone. -/
def Obligations.RotatesUndoEachOther : Prop :=
  (∀ s : State, ∃ t u, exec .rolA s = .next t ∧ exec .rorA t = .next u ∧ u.a = s.a ∧ u.p.c = s.p.c) ∧
  (∀ (w : Word) (s : State), w ≠ 0x0000#16 → w ≠ 0x0001#16 → busKind s w = .ram →
    ∃ t u, exec (.rolAbs w) s = .next t ∧ exec (.rorAbs w) t = .next u ∧
      (∀ a, byteAt u a = byteAt s a) ∧ u.p.c = s.p.c) ∧
  (∀ s : State, ∃ t u, exec .aslA s = .next t ∧ exec .lsrA t = .next u ∧ u.a.toNat = s.a.toNat % 128)

/-- R210 to R212. CMP, CPX and CPY set C for register >= memory, Z for equal, N from the difference, and nothing else. -/
def Obligations.ComparesSetFlagsOnly : Prop :=
  (HasForms .cmp (eightForms 0xC9 0xC5 0xD5 0xCD 0xDD 0xD9 0xC1 0xD1) ∧
    ∀ (i : Instr) (s : State), i.mnemonic = .cmp → ∃ d t, i.operand = .data d ∧ exec i s = .next t ∧
      SameButReads
        { s with
          p := { s.p with
            c := decide ((readData d s).val.toNat ≤ s.a.toNat), z := decide ((readData d s).val = s.a)
            n := decide (128 ≤ (s.a.toNat + 256 - (readData d s).val.toNat) % 256) }
          cycles := s.cycles + readCycles d (readData d s).crossed } t ∧
      t.accesses = (readData d s).st.accesses) ∧
  (HasForms .cpx [(.immediate, 0xE0), (.zeroPage, 0xE4), (.absolute, 0xEC)] ∧
    ∀ (i : Instr) (s : State), i.mnemonic = .cpx → ∃ d t, i.operand = .data d ∧ exec i s = .next t ∧
      SameButReads
        { s with
          p := { s.p with
            c := decide ((readData d s).val.toNat ≤ s.x.toNat), z := decide ((readData d s).val = s.x)
            n := decide (128 ≤ (s.x.toNat + 256 - (readData d s).val.toNat) % 256) }
          cycles := s.cycles + readCycles d (readData d s).crossed } t ∧
      t.accesses = (readData d s).st.accesses) ∧
  (HasForms .cpy [(.immediate, 0xC0), (.zeroPage, 0xC4), (.absolute, 0xCC)] ∧
    ∀ (i : Instr) (s : State), i.mnemonic = .cpy → ∃ d t, i.operand = .data d ∧ exec i s = .next t ∧
      SameButReads
        { s with
          p := { s.p with
            c := decide ((readData d s).val.toNat ≤ s.y.toNat), z := decide ((readData d s).val = s.y)
            n := decide (128 ≤ (s.y.toNat + 256 - (readData d s).val.toNat) % 256) }
          cycles := s.cycles + readCycles d (readData d s).crossed } t ∧
      t.accesses = (readData d s).st.accesses)

/-- Laws (a) and (b) of the compare and branch file. After CMP, BEQ goes for A = M, BCS for A >= M and BCC for A < M;
of each pair of branches one is taken. -/
def Obligations.BranchAfterCompare : Prop :=
  (∀ (i : Instr) (s : State) (b : Byte), i.mnemonic = .cmp →
    ∃ d t u v w, i.operand = .data d ∧ exec i s = .next t ∧
      exec (.beq b) t = .next u ∧ exec (.bcs b) t = .next v ∧ exec (.bcc b) t = .next w ∧
      u.pc = (if s.a = (readData d s).val then branchTarget s.pc b else s.pc) ∧
      v.pc = (if (readData d s).val.toNat ≤ s.a.toNat then branchTarget s.pc b else s.pc) ∧
      w.pc = (if s.a.toNat < (readData d s).val.toNat then branchTarget s.pc b else s.pc)) ∧
  (∀ (i j : Instr) (b : Byte) (s : State),
    (i, j) ∈ [(Instr.bcc b, Instr.bcs b), (.bne b, .beq b), (.bpl b, .bmi b), (.bvc b, .bvs b)] →
    ∃ t u, exec i s = .next t ∧ exec j s = .next u ∧
      ((t.pc = branchTarget s.pc b ∧ u.pc = s.pc) ∨ (t.pc = s.pc ∧ u.pc = branchTarget s.pc b)))

/-- The common rule of the branches. A branch adds its signed offset to the address of the next instruction if its
flag test holds; only PC and time change. -/
def Obligations.BranchesMoveOnlyPc : Prop :=
  (∀ b : Byte, encode (.bcc b) = [0x90, b] ∧ encode (.bcs b) = [0xB0, b] ∧ encode (.beq b) = [0xF0, b] ∧
    encode (.bne b) = [0xD0, b] ∧ encode (.bmi b) = [0x30, b] ∧ encode (.bpl b) = [0x10, b] ∧
    encode (.bvc b) = [0x50, b] ∧ encode (.bvs b) = [0x70, b]) ∧
  (∀ (i : Instr) (s : State), i.mnemonic ∈ [Mnemonic.bcc, .bcs, .beq, .bne, .bmi, .bpl, .bvc, .bvs] →
    ∃ (b : Byte) (target : Word), i.operand = .relative b ∧
      (target.toNat : Int) = ((s.pc.toNat : Int) + b.toInt) % 65536 ∧
      exec i s = .next (if branchTaken i.mnemonic s.p then
        { s with
          pc := target
          cycles := s.cycles + (if target.toNat / 256 = s.pc.toNat / 256 then 3 else 4) }
      else { s with cycles := s.cycles + 2 }))

/-- R230, R117. JMP sets PC to its operand, or to the word its pointer gives, the high byte from the same page. -/
def Obligations.JumpsSetPc : Prop :=
  (∀ w : Word, encode (.jmpAbs w) = [0x4C, lowByte w, highByte w] ∧ encode (.jmpInd w) = [0x6C, lowByte w, highByte w]) ∧
  HasForms .jmp [(.absolute, 0x4C), (.absoluteIndirect, 0x6C)] ∧
  (∀ i : Instr, i.mode = .absoluteIndirect → i.mnemonic = .jmp) ∧
  (∀ (w : Word) (s : State), exec (.jmpAbs w) s = .next { s with pc := w, cycles := s.cycles + 3 }) ∧
  (∀ (w : Word) (s : State), ∃ t, exec (.jmpInd w) s = .next t ∧
    SameButReads { s with pc := t.pc, cycles := s.cycles + 5 } t ∧
    t.accesses = s.accesses ++ [⟨.read, w, lowByte t.pc⟩,
      ⟨.read, if w.toNat % 256 = 255 then w - 255 else w + 1, highByte t.pc⟩] ∧
    (plainRead s w = true → plainRead s (if w.toNat % 256 = 255 then w - 255 else w + 1) = true →
      t.pc = mkWord (byteAt s (if w.toNat % 256 = 255 then w - 255 else w + 1)) (byteAt s w)))

/-- The flag instructions and NOP (46_flags_system.md sections 1, 2); the I that CLI and SEI leave is decision D19
(assumption log 11). CLC, SEC, CLI, SEI, CLD, SED and CLV write one flag each, NOP none. -/
def Obligations.FlagInstructionsWriteOneFlag : Prop :=
  (encode .clc = [0x18] ∧ ∀ s : State,
    exec .clc s = .next { s with p := { s.p with c := false }, cycles := s.cycles + 2 }) ∧
  (encode .sec = [0x38] ∧ ∀ s : State,
    exec .sec s = .next { s with p := { s.p with c := true }, cycles := s.cycles + 2 }) ∧
  (encode .cli = [0x58] ∧ ∀ s : State,
    exec .cli s = .next { s with p := { s.p with i := false }, iDelayed := some s.p.i, cycles := s.cycles + 2 }) ∧
  (encode .sei = [0x78] ∧ ∀ s : State,
    exec .sei s = .next { s with p := { s.p with i := true }, iDelayed := some s.p.i, cycles := s.cycles + 2 }) ∧
  (encode .cld = [0xD8] ∧ ∀ s : State,
    exec .cld s = .next { s with p := { s.p with d := false }, cycles := s.cycles + 2 }) ∧
  (encode .sed = [0xF8] ∧ ∀ s : State,
    exec .sed s = .next { s with p := { s.p with d := true }, cycles := s.cycles + 2 }) ∧
  (encode .clv = [0xB8] ∧ ∀ s : State,
    exec .clv s = .next { s with p := { s.p with v := false }, cycles := s.cycles + 2 }) ∧
  (encode .nop = [0xEA] ∧ ∀ s : State, exec .nop s = .next { s with cycles := s.cycles + 2 })

/-- Reading the port. A read of $0001 gives latch bits where DDR is 1, and where it is 0 the pins, with bits 6 and 7
reading 1. -/
def Obligations.PortReadsLatchOrPins : Prop :=
  ∀ s : State, ∃ pins : BitVec 6,
    (∀ k, k < 8 → (memRead 0x0001#16 s).1.getLsbD k =
      (if s.ddr.getLsbD k then s.por.getLsbD k else if k < 6 then pins.getLsbD k else true)) ∧
    (∀ q rest, s.portIn = q :: rest → pins = q ∧ (memRead 0x0001#16 s).2.portIn = rest) ∧
    SameButReads s (memRead 0x0001#16 s).2 ∧
    ∃ t, exec (.ldaZpg 0x01) s = .next t ∧ t.a = (memRead 0x0001#16 s).1

/-- Writing the port. A store to $0000 sets DDR, a store to $0001 sets the whole latch, and a pin is driven where its
DDR bit is 1. -/
def Obligations.PortWritesDriveThePins : Prop :=
  (∀ s : State, ∃ t u, exec (.staZpg 0x00) s = .next t ∧ t.ddr = s.a ∧ t.por = s.por ∧ t.mem = s.mem ∧
    exec (.ldaZpg 0x00) t = .next u ∧ u.a = s.a) ∧
  (∀ s : State, ∃ t, exec (.staZpg 0x01) s = .next t ∧ t.por = s.a ∧ t.ddr = s.ddr ∧ t.mem = s.mem ∧
    ∀ (d : Byte) (k : Fin 6),
      portOut t k = (if s.ddr.getLsbD k then some (s.a.getLsbD k) else none) ∧
      portOut { t with ddr := d } k = (if d.getLsbD k then some (s.a.getLsbD k) else none))

/-- MemWrite (20_memory.md section 1); the whole-latch write is decision D10 (log 20), memory after a device write the
model's choice (log 3). A write sets DDR at $0000, the latch at $0001, the byte in RAM, and leaves ROM as it is. -/
def Obligations.WritesReachTheirLocation : Prop :=
  ∀ (a : Word) (v : Byte) (s : State),
    let t := memWrite a v s
    SameButStores s t ∧ t.accesses = s.accesses ++ [⟨.write, a, v⟩] ∧
    (a = 0x0000#16 → t.ddr = v ∧ t.por = s.por ∧ t.mem = s.mem ∧ (memRead a t).1 = v) ∧
    (a = 0x0001#16 → t.por = v ∧ t.ddr = s.ddr ∧ t.mem = s.mem) ∧
    (a ≠ 0x0000#16 → a ≠ 0x0001#16 → t.ddr = s.ddr ∧ t.por = s.por ∧
      (busKind s a = .ram → (memRead a t).1 = v ∧ ∀ b, b ≠ a → byteAt t b = byteAt s b) ∧
      (busKind s a ≠ .ram → t.mem = s.mem))

/-- Law (b) of the load and store file. A store followed by a load from the same address in RAM gives the byte stored,
with N and Z from it. -/
def Obligations.StoreThenLoadGivesTheByte : Prop :=
  (∀ (w : Word) (s : State), w ≠ 0x0000#16 → w ≠ 0x0001#16 → busKind s w = .ram →
    ∃ t u, exec (.staAbs w) s = .next t ∧ exec (.ldaAbs w) t = .next u ∧
      SameButStores { s with p := nzOf s.p s.a, cycles := s.cycles + 8 } u ∧
      ∀ b, byteAt u b = (if b = w then s.a else byteAt s b)) ∧
  (∀ (w : Word) (s : State), w ≠ 0x0000#16 → w ≠ 0x0001#16 → busKind s w = .ram →
    ∃ t u, exec (.stxAbs w) s = .next t ∧ exec (.ldyAbs w) t = .next u ∧ u.y = s.x ∧ u.p = nzOf s.p s.x)

/-- The addressing modes (30_encoding.md section 3); the pointer wrap of (Indirect),Y is decision D18 (log 17), sums
modulo 65536 decision D12 (log 16). Each addressing mode forms its address: zero-page sums wrap in page zero, the
others modulo 65536. -/
def Obligations.EffectiveAddresses : Prop :=
  (∀ (z : Byte) (s : State),
    ((resolve (.zpg z) s).addr.toNat = z.toNat ∧ (resolve (.zpg z) s).crossed = false) ∧
    ((resolve (.zpgX z) s).addr.toNat = (z.toNat + s.x.toNat) % 256 ∧ (resolve (.zpgX z) s).crossed = false) ∧
    ((resolve (.zpgY z) s).addr.toNat = (z.toNat + s.y.toNat) % 256 ∧ (resolve (.zpgY z) s).crossed = false)) ∧
  (∀ (w : Word) (s : State),
    ((resolve (.abs w) s).addr = w ∧ (resolve (.abs w) s).crossed = false) ∧
    ((resolve (.absX w) s).addr.toNat = (w.toNat + s.x.toNat) % 65536 ∧
      (resolve (.absX w) s).crossed = decide (256 ≤ w.toNat % 256 + s.x.toNat)) ∧
    ((resolve (.absY w) s).addr.toNat = (w.toNat + s.y.toNat) % 65536 ∧
      (resolve (.absY w) s).crossed = decide (256 ≤ w.toNat % 256 + s.y.toNat))) ∧
  (∀ (z : Byte) (s : State) (lo hi : Word), lo.toNat = (z.toNat + s.x.toNat) % 256 →
    hi.toNat = (z.toNat + s.x.toNat + 1) % 256 → plainRead s lo = true → plainRead s hi = true →
    (resolve (.xInd z) s).addr.toNat = (byteAt s hi).toNat * 256 + (byteAt s lo).toNat ∧
    (resolve (.xInd z) s).crossed = false) ∧
  (∀ (z : Byte) (s : State) (lo hi : Word), lo.toNat = z.toNat → hi.toNat = (z.toNat + 1) % 256 →
    plainRead s lo = true → plainRead s hi = true →
    (resolve (.indY z) s).addr.toNat = ((byteAt s hi).toNat * 256 + (byteAt s lo).toNat + s.y.toNat) % 65536 ∧
    (resolve (.indY z) s).crossed = decide (256 ≤ (byteAt s lo).toNat + s.y.toNat)) ∧
  (∀ (m : AddrMode) (s : State), plainRead s (resolve m s).addr = true →
    (readData (.mem m) s).val = byteAt s (resolve m s).addr) ∧
  (∀ (m : Byte) (s : State), (readData (.imm m) s).val = m ∧ (readData (.imm m) s).st = s) ∧
  (∀ i : Instr, i.mode = .zeroPageY → i.mnemonic = .ldx ∨ i.mnemonic = .stx)

/-- Who writes which register. Every instruction completes and leaves A, X, Y, SP and PC alone but for those listed as
writing them. -/
def Obligations.RegisterFrame : Prop :=
  ∀ (i : Instr) (s : State), ∃ t, exec i s = .next t ∧
    (writesA i = false → t.a = s.a) ∧ (writesX i = false → t.x = s.x) ∧ (writesY i = false → t.y = s.y) ∧
    (writesSp i = false → t.sp = s.sp) ∧ (transfersControl i = false → t.pc = s.pc) ∧
    t.nmiPending = s.nmiPending ∧ t.nmiPrev = s.nmiPrev ∧ t.afterEntry = s.afterEntry ∧ t.afterReset = s.afterReset ∧
    t.resCycles = s.resCycles ∧ t.busMap = s.busMap ∧ t.lines = s.lines

/-- Who writes which flag. Every instruction completes and leaves each flag alone but for those listed as writing it. -/
def Obligations.FlagFrame : Prop :=
  ∀ (i : Instr) (s : State), ∃ t, exec i s = .next t ∧
    (writesNZ i = false → t.p.n = s.p.n ∧ t.p.z = s.p.z) ∧
    (writesC i = false → t.p.c = s.p.c) ∧ (writesV i = false → t.p.v = s.p.v) ∧
    (writesD i = false → t.p.d = s.p.d) ∧ (writesI i = false → t.p.i = s.p.i)

/-- Which instructions reach memory, and where. Every instruction writes exactly its listed addresses, in order, and
changes no other byte. -/
def Obligations.MemoryFrame : Prop :=
  ∀ (i : Instr) (s : State), ∃ (t : State) (log : List Access), exec i s = .next t ∧
    t.accesses = s.accesses ++ log ∧
    (log.filter fun a => a.kind == .write).map (fun a => a.addr) = storeTargets i s ∧
    (∀ a, a ∉ storeTargets i s → byteAt t a = byteAt s a) ∧
    (storeTargets i s = [] → t.mem = s.mem ∧ t.ddr = s.ddr ∧ t.por = s.por)

/-- The absence of faults, and the bounds of the cycle table. No instruction can fault: each completes in 2 to 7
cycles on every state. -/
def Obligations.NoInstructionStops : Prop :=
  ∀ (i : Instr) (s : State), ∃ t, exec i s = .next t ∧
    s.cycles + 2 ≤ t.cycles ∧ t.cycles ≤ s.cycles + 7 ∧ s.draws ≤ t.draws

/-- The end of the reset sequence; an NMI edge in it is discarded by decision D13 (assumption log 9, 21). After the
reset sequence the first thing executed is the instruction at PC, whatever the NMI and IRQ lines do. -/
def Obligations.TheInstructionAtTheVectorRunsFirst : Prop :=
  ∀ (p : Params) (i : Instr) (s t : State), (currentLines s).resLow = 0 → 0 < s.resCycles → boundary p s = .next t →
    ResHigh t → (currentLines t).aecTakesBus = false → BytesAtPc i t →
    boundary p t = exec i { actionStart t with
      pc := t.pc + BitVec.ofNat 16 (encode i).length, accesses := fetchLog t (encode i).length } ∧
    ∃ u, boundary p t = .next u ∧ u.nmiPending = false ∧ u.nmiPrev = !(currentLines t).nmiLow
end

