-- ==== Sys2Proof/Laws/Bits.lean ====
section
/-! SUPPORT. Words and their bytes, and P and its byte. -/

namespace Sys2Proof.Machine

@[simp] theorem mkWord_toNat (hi lo : Byte) : (mkWord hi lo).toNat = hi.toNat * 256 + lo.toNat := by
  have := hi.isLt; have := lo.isLt
  simp only [mkWord, BitVec.toNat_ofNat]
  omega

@[simp] theorem lowByte_toNat (w : Word) : (lowByte w).toNat = w.toNat % 256 := by
  simp [lowByte]

@[simp] theorem highByte_toNat (w : Word) : (highByte w).toNat = w.toNat / 256 := by
  have := w.isLt
  simp only [highByte, BitVec.toNat_ofNat]
  omega

@[simp] theorem zext_toNat (b : Byte) : (zext b).toNat = b.toNat := by
  have := b.isLt
  simp only [zext, BitVec.toNat_setWidth]
  omega

@[simp] theorem stackAddr_toNat (sp : Byte) : (stackAddr sp).toNat = 256 + sp.toNat := by
  simp [stackAddr]

@[simp] theorem mkWord_high_low (w : Word) : mkWord (highByte w) (lowByte w) = w := by
  apply BitVec.eq_of_toNat_eq
  simp only [mkWord_toNat, highByte_toNat, lowByte_toNat]
  omega

@[simp] theorem lowByte_mkWord (hi lo : Byte) : lowByte (mkWord hi lo) = lo := by
  have := lo.isLt
  apply BitVec.eq_of_toNat_eq
  simp only [lowByte_toNat, mkWord_toNat]
  omega

@[simp] theorem highByte_mkWord (hi lo : Byte) : highByte (mkWord hi lo) = hi := by
  have := lo.isLt
  apply BitVec.eq_of_toNat_eq
  simp only [highByte_toNat, mkWord_toNat]
  omega

theorem stackAddr_injective {a b : Byte} (h : stackAddr a = stackAddr b) : a = b := by
  apply BitVec.eq_of_toNat_eq
  have := congrArg BitVec.toNat h
  simp only [stackAddr_toNat] at this
  omega

theorem stackAddr_ne_zero (sp : Byte) : stackAddr sp ≠ 0#16 := by
  intro h
  have := congrArg BitVec.toNat h
  simp at this

theorem stackAddr_ne_one (sp : Byte) : stackAddr sp ≠ 1#16 := by
  intro h
  have := congrArg BitVec.toNat h
  simp at this
  omega

/-- Pulling what was pushed restores every stored flag, whatever bit 4 was (R33, R34). -/
@[simp] theorem statusOfByte_statusByte (p : Status) (b : Bool) : statusOfByte (statusByte p b) = p := by
  obtain ⟨n, v, d, i, z, c⟩ := p
  cases n <;> cases v <;> cases d <;> cases i <;> cases z <;> cases c <;> cases b <;> rfl

@[simp] theorem setNZ_n (p : Status) (v : Byte) : (setNZ p v).n = v.msb := rfl
@[simp] theorem setNZ_z (p : Status) (v : Byte) : (setNZ p v).z = (v == 0) := rfl
@[simp] theorem setNZ_c (p : Status) (v : Byte) : (setNZ p v).c = p.c := rfl
@[simp] theorem setNZ_v (p : Status) (v : Byte) : (setNZ p v).v = p.v := rfl
@[simp] theorem setNZ_d (p : Status) (v : Byte) : (setNZ p v).d = p.d := rfl
@[simp] theorem setNZ_i (p : Status) (v : Byte) : (setNZ p v).i = p.i := rfl

end Sys2Proof.Machine
end

