-- ==== Sys2Proof/Laws/Memory.lean ====
section
/-! SUPPORT. The laws of the byte store: a read after a write, and the canonical form, which every operation keeps. -/

namespace Sys2Proof.Machine

@[simp] theorem Memory.read_nil (k : Nat) : Memory.read [] k = Memory.unlisted := rfl

@[simp] theorem Memory.read_cons (c : Host.Cell) (m : Memory) (k : Nat) :
    Memory.read (c :: m) k = if c.1 = k then c.2 else Memory.read m k := rfl

theorem Memory.read_erase (m : Memory) (k j : Nat) :
    (m.erase k).read j = if j = k then Memory.unlisted else m.read j := by
  induction m with
  | nil => simp [Memory.erase]
  | cons c m ih =>
    unfold Memory.erase at ih ⊢
    by_cases hc : c.1 = k
    · rw [List.filter_cons_of_neg (by simp [hc]), ih]
      by_cases hj : j = k
      · simp [hj]
      · have : c.1 ≠ j := fun h => hj (h ▸ hc)
        simp [hj, this]
    · rw [List.filter_cons_of_pos (by simp [hc])]
      by_cases hj : c.1 = j
      · have : j ≠ k := fun h => hc (hj.trans h)
        simp [hj, this]
      · simp [hj, ih]

theorem Memory.read_insert (m : Memory) (k j : Nat) (v : Byte) :
    (m.insert k v).read j = if j = k then v else m.read j := by
  induction m with
  | nil => simp [Memory.insert, eq_comm]
  | cons c m ih =>
    obtain ⟨c, w⟩ := c
    by_cases hj : j = k
    · subst hj
      by_cases h1 : j < c
      · simp [Memory.insert, h1]
      · by_cases h2 : j = c
        · simp [Memory.insert, h2]
        · have : c ≠ j := fun h => h2 h.symm
          simp [Memory.insert, h1, h2, this, ih]
    · have hk : k ≠ j := fun h => hj h.symm
      by_cases h1 : k < c
      · simp [Memory.insert, h1, hj, hk]
      · by_cases h2 : k = c
        · subst h2
          simp [Memory.insert, hj, hk]
        · simp [Memory.insert, h1, h2, hj, ih]

/-- A read after a write: the byte written at its address, the old byte at every other. -/
theorem Memory.read_write (m : Memory) (k j : Nat) (v : Byte) :
    (m.write k v).read j = if j = k then v else m.read j := by
  unfold Memory.write
  split
  · rw [Memory.read_erase]; simp [*]
  · rw [Memory.read_insert]

@[simp] theorem Memory.read_write_same (m : Memory) (k : Nat) (v : Byte) : (m.write k v).read k = v := by
  simp [Memory.read_write]

theorem Memory.read_write_other (m : Memory) {k j : Nat} (v : Byte) (h : j ≠ k) :
    (m.write k v).read j = m.read j := by
  simp [Memory.read_write, h]

/-- Rising addresses, said of each pair. -/
theorem Memory.rising_iff (m : Memory) : m.rising = true ↔ m.Pairwise (fun a b => a.1 < b.1) := by
  induction m with
  | nil => simp [Memory.rising]
  | cons a m ih =>
    cases m with
    | nil => simp [Memory.rising]
    | cons b m =>
      rw [Memory.rising, Bool.and_eq_true, ih, List.pairwise_cons (a := a), List.pairwise_cons (a := b)]
      simp only [decide_eq_true_eq, List.mem_cons, forall_eq_or_imp]
      constructor
      · rintro ⟨h, hb, hm⟩
        exact ⟨⟨h, fun c hc => h.trans (hb c hc)⟩, hb, hm⟩
      · rintro ⟨⟨h, -⟩, hb, hm⟩
        exact ⟨h, hb, hm⟩

/-- The canonical form, said of each pair and each entry. -/
theorem Memory.wf_iff (m : Memory) :
    m.wf = true ↔ m.Pairwise (fun a b => a.1 < b.1) ∧ ∀ c ∈ m, Memory.entryOk c = true := by
  simp [Memory.wf, Memory.rising_iff]

theorem Memory.wf_nil : Memory.wf [] = true := rfl

theorem Memory.erase_wf {m : Memory} (k : Nat) (h : m.wf = true) : (m.erase k).wf = true := by
  rw [Memory.wf_iff] at h ⊢
  exact ⟨h.1.sublist List.filter_sublist, fun c hc => h.2 c (List.mem_of_mem_filter hc)⟩

theorem Memory.mem_insert {m : Memory} {k : Nat} {v : Byte} {c : Host.Cell} (h : c ∈ m.insert k v) :
    c = (k, v) ∨ c ∈ m := by
  induction m with
  | nil => simpa [Memory.insert] using h
  | cons d m ih =>
    obtain ⟨d, w⟩ := d
    unfold Memory.insert at h
    split at h
    · simpa using h
    · split at h
      · rcases List.mem_cons.1 h with h | h
        · exact .inl h
        · exact .inr (List.mem_cons_of_mem _ h)
      · rcases List.mem_cons.1 h with h | h
        · exact .inr (h ▸ List.mem_cons_self)
        · exact (ih h).imp id (List.mem_cons_of_mem _)

theorem Memory.insert_wf {m : Memory} {k : Nat} {v : Byte} (h : m.wf = true)
    (hk : Memory.entryOk (k, v) = true) : (m.insert k v).wf = true := by
  rw [Memory.wf_iff] at h ⊢
  refine ⟨?_, fun c hc => (Memory.mem_insert hc).elim (fun e => e ▸ hk) (h.2 c)⟩
  have hp := h.1
  clear h hk
  induction m with
  | nil => simp [Memory.insert]
  | cons d m ih =>
    obtain ⟨d, w⟩ := d
    rw [List.pairwise_cons] at hp
    unfold Memory.insert
    split
    · rename_i hlt
      refine List.pairwise_cons.2 ⟨?_, List.pairwise_cons.2 hp⟩
      intro c hc
      rcases List.mem_cons.1 hc with rfl | hc
      · exact hlt
      · exact hlt.trans (hp.1 c hc)
    · split
      · rename_i heq
        exact List.pairwise_cons.2 ⟨fun c hc => heq ▸ hp.1 c hc, hp.2⟩
      · rename_i h1 h2
        refine List.pairwise_cons.2 ⟨?_, ih hp.2⟩
        intro c hc
        rcases Memory.mem_insert hc with rfl | hc
        · show d < k
          omega
        · exact hp.1 c hc

/-- A write to an external address keeps the canonical form. -/
theorem Memory.write_wf {m : Memory} {k : Nat} (v : Byte) (h : m.wf = true) (h2 : 2 ≤ k) (hk : k < 65536) :
    (m.write k v).wf = true := by
  unfold Memory.write
  split
  · exact Memory.erase_wf k h
  · rename_i hv
    exact Memory.insert_wf h (by simp [Memory.entryOk, h2, hk, hv])

end Sys2Proof.Machine
end

