-- ==== Sys2Proof/Laws/State.lean ====
section
/-! SUPPORT. Every field of State after every named update: the new value in the field it writes, the old value in every
other. -/

namespace Sys2Proof.Machine

variable (s : State)

section
variable (v : Byte)
@[simp] theorem State.setA_a : (s.setA v).a = v := rfl
@[simp] theorem State.setA_x : (s.setA v).x = s.x := rfl
@[simp] theorem State.setA_y : (s.setA v).y = s.y := rfl
@[simp] theorem State.setA_sp : (s.setA v).sp = s.sp := rfl
@[simp] theorem State.setA_pc : (s.setA v).pc = s.pc := rfl
@[simp] theorem State.setA_p : (s.setA v).p = s.p := rfl
@[simp] theorem State.setA_ddr : (s.setA v).ddr = s.ddr := rfl
@[simp] theorem State.setA_por : (s.setA v).por = s.por := rfl
@[simp] theorem State.setA_nmiPending : (s.setA v).nmiPending = s.nmiPending := rfl
@[simp] theorem State.setA_nmiPrev : (s.setA v).nmiPrev = s.nmiPrev := rfl
@[simp] theorem State.setA_iDelayed : (s.setA v).iDelayed = s.iDelayed := rfl
@[simp] theorem State.setA_afterEntry : (s.setA v).afterEntry = s.afterEntry := rfl
@[simp] theorem State.setA_afterReset : (s.setA v).afterReset = s.afterReset := rfl
@[simp] theorem State.setA_resCycles : (s.setA v).resCycles = s.resCycles := rfl
@[simp] theorem State.setA_mem : (s.setA v).mem = s.mem := rfl
@[simp] theorem State.setA_busMap : (s.setA v).busMap = s.busMap := rfl
@[simp] theorem State.setA_lines : (s.setA v).lines = s.lines := rfl
@[simp] theorem State.setA_portIn : (s.setA v).portIn = s.portIn := rfl
@[simp] theorem State.setA_draws : (s.setA v).draws = s.draws := rfl
@[simp] theorem State.setA_accesses : (s.setA v).accesses = s.accesses := rfl
@[simp] theorem State.setA_cycles : (s.setA v).cycles = s.cycles := rfl
end

section
variable (v : Byte)
@[simp] theorem State.setX_a : (s.setX v).a = s.a := rfl
@[simp] theorem State.setX_x : (s.setX v).x = v := rfl
@[simp] theorem State.setX_y : (s.setX v).y = s.y := rfl
@[simp] theorem State.setX_sp : (s.setX v).sp = s.sp := rfl
@[simp] theorem State.setX_pc : (s.setX v).pc = s.pc := rfl
@[simp] theorem State.setX_p : (s.setX v).p = s.p := rfl
@[simp] theorem State.setX_ddr : (s.setX v).ddr = s.ddr := rfl
@[simp] theorem State.setX_por : (s.setX v).por = s.por := rfl
@[simp] theorem State.setX_nmiPending : (s.setX v).nmiPending = s.nmiPending := rfl
@[simp] theorem State.setX_nmiPrev : (s.setX v).nmiPrev = s.nmiPrev := rfl
@[simp] theorem State.setX_iDelayed : (s.setX v).iDelayed = s.iDelayed := rfl
@[simp] theorem State.setX_afterEntry : (s.setX v).afterEntry = s.afterEntry := rfl
@[simp] theorem State.setX_afterReset : (s.setX v).afterReset = s.afterReset := rfl
@[simp] theorem State.setX_resCycles : (s.setX v).resCycles = s.resCycles := rfl
@[simp] theorem State.setX_mem : (s.setX v).mem = s.mem := rfl
@[simp] theorem State.setX_busMap : (s.setX v).busMap = s.busMap := rfl
@[simp] theorem State.setX_lines : (s.setX v).lines = s.lines := rfl
@[simp] theorem State.setX_portIn : (s.setX v).portIn = s.portIn := rfl
@[simp] theorem State.setX_draws : (s.setX v).draws = s.draws := rfl
@[simp] theorem State.setX_accesses : (s.setX v).accesses = s.accesses := rfl
@[simp] theorem State.setX_cycles : (s.setX v).cycles = s.cycles := rfl
end

section
variable (v : Byte)
@[simp] theorem State.setY_a : (s.setY v).a = s.a := rfl
@[simp] theorem State.setY_x : (s.setY v).x = s.x := rfl
@[simp] theorem State.setY_y : (s.setY v).y = v := rfl
@[simp] theorem State.setY_sp : (s.setY v).sp = s.sp := rfl
@[simp] theorem State.setY_pc : (s.setY v).pc = s.pc := rfl
@[simp] theorem State.setY_p : (s.setY v).p = s.p := rfl
@[simp] theorem State.setY_ddr : (s.setY v).ddr = s.ddr := rfl
@[simp] theorem State.setY_por : (s.setY v).por = s.por := rfl
@[simp] theorem State.setY_nmiPending : (s.setY v).nmiPending = s.nmiPending := rfl
@[simp] theorem State.setY_nmiPrev : (s.setY v).nmiPrev = s.nmiPrev := rfl
@[simp] theorem State.setY_iDelayed : (s.setY v).iDelayed = s.iDelayed := rfl
@[simp] theorem State.setY_afterEntry : (s.setY v).afterEntry = s.afterEntry := rfl
@[simp] theorem State.setY_afterReset : (s.setY v).afterReset = s.afterReset := rfl
@[simp] theorem State.setY_resCycles : (s.setY v).resCycles = s.resCycles := rfl
@[simp] theorem State.setY_mem : (s.setY v).mem = s.mem := rfl
@[simp] theorem State.setY_busMap : (s.setY v).busMap = s.busMap := rfl
@[simp] theorem State.setY_lines : (s.setY v).lines = s.lines := rfl
@[simp] theorem State.setY_portIn : (s.setY v).portIn = s.portIn := rfl
@[simp] theorem State.setY_draws : (s.setY v).draws = s.draws := rfl
@[simp] theorem State.setY_accesses : (s.setY v).accesses = s.accesses := rfl
@[simp] theorem State.setY_cycles : (s.setY v).cycles = s.cycles := rfl
end

section
variable (v : Byte)
@[simp] theorem State.setSp_a : (s.setSp v).a = s.a := rfl
@[simp] theorem State.setSp_x : (s.setSp v).x = s.x := rfl
@[simp] theorem State.setSp_y : (s.setSp v).y = s.y := rfl
@[simp] theorem State.setSp_sp : (s.setSp v).sp = v := rfl
@[simp] theorem State.setSp_pc : (s.setSp v).pc = s.pc := rfl
@[simp] theorem State.setSp_p : (s.setSp v).p = s.p := rfl
@[simp] theorem State.setSp_ddr : (s.setSp v).ddr = s.ddr := rfl
@[simp] theorem State.setSp_por : (s.setSp v).por = s.por := rfl
@[simp] theorem State.setSp_nmiPending : (s.setSp v).nmiPending = s.nmiPending := rfl
@[simp] theorem State.setSp_nmiPrev : (s.setSp v).nmiPrev = s.nmiPrev := rfl
@[simp] theorem State.setSp_iDelayed : (s.setSp v).iDelayed = s.iDelayed := rfl
@[simp] theorem State.setSp_afterEntry : (s.setSp v).afterEntry = s.afterEntry := rfl
@[simp] theorem State.setSp_afterReset : (s.setSp v).afterReset = s.afterReset := rfl
@[simp] theorem State.setSp_resCycles : (s.setSp v).resCycles = s.resCycles := rfl
@[simp] theorem State.setSp_mem : (s.setSp v).mem = s.mem := rfl
@[simp] theorem State.setSp_busMap : (s.setSp v).busMap = s.busMap := rfl
@[simp] theorem State.setSp_lines : (s.setSp v).lines = s.lines := rfl
@[simp] theorem State.setSp_portIn : (s.setSp v).portIn = s.portIn := rfl
@[simp] theorem State.setSp_draws : (s.setSp v).draws = s.draws := rfl
@[simp] theorem State.setSp_accesses : (s.setSp v).accesses = s.accesses := rfl
@[simp] theorem State.setSp_cycles : (s.setSp v).cycles = s.cycles := rfl
end

section
variable (v : Word)
@[simp] theorem State.setPc_a : (s.setPc v).a = s.a := rfl
@[simp] theorem State.setPc_x : (s.setPc v).x = s.x := rfl
@[simp] theorem State.setPc_y : (s.setPc v).y = s.y := rfl
@[simp] theorem State.setPc_sp : (s.setPc v).sp = s.sp := rfl
@[simp] theorem State.setPc_pc : (s.setPc v).pc = v := rfl
@[simp] theorem State.setPc_p : (s.setPc v).p = s.p := rfl
@[simp] theorem State.setPc_ddr : (s.setPc v).ddr = s.ddr := rfl
@[simp] theorem State.setPc_por : (s.setPc v).por = s.por := rfl
@[simp] theorem State.setPc_nmiPending : (s.setPc v).nmiPending = s.nmiPending := rfl
@[simp] theorem State.setPc_nmiPrev : (s.setPc v).nmiPrev = s.nmiPrev := rfl
@[simp] theorem State.setPc_iDelayed : (s.setPc v).iDelayed = s.iDelayed := rfl
@[simp] theorem State.setPc_afterEntry : (s.setPc v).afterEntry = s.afterEntry := rfl
@[simp] theorem State.setPc_afterReset : (s.setPc v).afterReset = s.afterReset := rfl
@[simp] theorem State.setPc_resCycles : (s.setPc v).resCycles = s.resCycles := rfl
@[simp] theorem State.setPc_mem : (s.setPc v).mem = s.mem := rfl
@[simp] theorem State.setPc_busMap : (s.setPc v).busMap = s.busMap := rfl
@[simp] theorem State.setPc_lines : (s.setPc v).lines = s.lines := rfl
@[simp] theorem State.setPc_portIn : (s.setPc v).portIn = s.portIn := rfl
@[simp] theorem State.setPc_draws : (s.setPc v).draws = s.draws := rfl
@[simp] theorem State.setPc_accesses : (s.setPc v).accesses = s.accesses := rfl
@[simp] theorem State.setPc_cycles : (s.setPc v).cycles = s.cycles := rfl
end

section
variable (v : Status)
@[simp] theorem State.setP_a : (s.setP v).a = s.a := rfl
@[simp] theorem State.setP_x : (s.setP v).x = s.x := rfl
@[simp] theorem State.setP_y : (s.setP v).y = s.y := rfl
@[simp] theorem State.setP_sp : (s.setP v).sp = s.sp := rfl
@[simp] theorem State.setP_pc : (s.setP v).pc = s.pc := rfl
@[simp] theorem State.setP_p : (s.setP v).p = v := rfl
@[simp] theorem State.setP_ddr : (s.setP v).ddr = s.ddr := rfl
@[simp] theorem State.setP_por : (s.setP v).por = s.por := rfl
@[simp] theorem State.setP_nmiPending : (s.setP v).nmiPending = s.nmiPending := rfl
@[simp] theorem State.setP_nmiPrev : (s.setP v).nmiPrev = s.nmiPrev := rfl
@[simp] theorem State.setP_iDelayed : (s.setP v).iDelayed = s.iDelayed := rfl
@[simp] theorem State.setP_afterEntry : (s.setP v).afterEntry = s.afterEntry := rfl
@[simp] theorem State.setP_afterReset : (s.setP v).afterReset = s.afterReset := rfl
@[simp] theorem State.setP_resCycles : (s.setP v).resCycles = s.resCycles := rfl
@[simp] theorem State.setP_mem : (s.setP v).mem = s.mem := rfl
@[simp] theorem State.setP_busMap : (s.setP v).busMap = s.busMap := rfl
@[simp] theorem State.setP_lines : (s.setP v).lines = s.lines := rfl
@[simp] theorem State.setP_portIn : (s.setP v).portIn = s.portIn := rfl
@[simp] theorem State.setP_draws : (s.setP v).draws = s.draws := rfl
@[simp] theorem State.setP_accesses : (s.setP v).accesses = s.accesses := rfl
@[simp] theorem State.setP_cycles : (s.setP v).cycles = s.cycles := rfl
end

section
variable (v : Byte)
@[simp] theorem State.setDdr_a : (s.setDdr v).a = s.a := rfl
@[simp] theorem State.setDdr_x : (s.setDdr v).x = s.x := rfl
@[simp] theorem State.setDdr_y : (s.setDdr v).y = s.y := rfl
@[simp] theorem State.setDdr_sp : (s.setDdr v).sp = s.sp := rfl
@[simp] theorem State.setDdr_pc : (s.setDdr v).pc = s.pc := rfl
@[simp] theorem State.setDdr_p : (s.setDdr v).p = s.p := rfl
@[simp] theorem State.setDdr_ddr : (s.setDdr v).ddr = v := rfl
@[simp] theorem State.setDdr_por : (s.setDdr v).por = s.por := rfl
@[simp] theorem State.setDdr_nmiPending : (s.setDdr v).nmiPending = s.nmiPending := rfl
@[simp] theorem State.setDdr_nmiPrev : (s.setDdr v).nmiPrev = s.nmiPrev := rfl
@[simp] theorem State.setDdr_iDelayed : (s.setDdr v).iDelayed = s.iDelayed := rfl
@[simp] theorem State.setDdr_afterEntry : (s.setDdr v).afterEntry = s.afterEntry := rfl
@[simp] theorem State.setDdr_afterReset : (s.setDdr v).afterReset = s.afterReset := rfl
@[simp] theorem State.setDdr_resCycles : (s.setDdr v).resCycles = s.resCycles := rfl
@[simp] theorem State.setDdr_mem : (s.setDdr v).mem = s.mem := rfl
@[simp] theorem State.setDdr_busMap : (s.setDdr v).busMap = s.busMap := rfl
@[simp] theorem State.setDdr_lines : (s.setDdr v).lines = s.lines := rfl
@[simp] theorem State.setDdr_portIn : (s.setDdr v).portIn = s.portIn := rfl
@[simp] theorem State.setDdr_draws : (s.setDdr v).draws = s.draws := rfl
@[simp] theorem State.setDdr_accesses : (s.setDdr v).accesses = s.accesses := rfl
@[simp] theorem State.setDdr_cycles : (s.setDdr v).cycles = s.cycles := rfl
end

section
variable (v : Byte)
@[simp] theorem State.setPor_a : (s.setPor v).a = s.a := rfl
@[simp] theorem State.setPor_x : (s.setPor v).x = s.x := rfl
@[simp] theorem State.setPor_y : (s.setPor v).y = s.y := rfl
@[simp] theorem State.setPor_sp : (s.setPor v).sp = s.sp := rfl
@[simp] theorem State.setPor_pc : (s.setPor v).pc = s.pc := rfl
@[simp] theorem State.setPor_p : (s.setPor v).p = s.p := rfl
@[simp] theorem State.setPor_ddr : (s.setPor v).ddr = s.ddr := rfl
@[simp] theorem State.setPor_por : (s.setPor v).por = v := rfl
@[simp] theorem State.setPor_nmiPending : (s.setPor v).nmiPending = s.nmiPending := rfl
@[simp] theorem State.setPor_nmiPrev : (s.setPor v).nmiPrev = s.nmiPrev := rfl
@[simp] theorem State.setPor_iDelayed : (s.setPor v).iDelayed = s.iDelayed := rfl
@[simp] theorem State.setPor_afterEntry : (s.setPor v).afterEntry = s.afterEntry := rfl
@[simp] theorem State.setPor_afterReset : (s.setPor v).afterReset = s.afterReset := rfl
@[simp] theorem State.setPor_resCycles : (s.setPor v).resCycles = s.resCycles := rfl
@[simp] theorem State.setPor_mem : (s.setPor v).mem = s.mem := rfl
@[simp] theorem State.setPor_busMap : (s.setPor v).busMap = s.busMap := rfl
@[simp] theorem State.setPor_lines : (s.setPor v).lines = s.lines := rfl
@[simp] theorem State.setPor_portIn : (s.setPor v).portIn = s.portIn := rfl
@[simp] theorem State.setPor_draws : (s.setPor v).draws = s.draws := rfl
@[simp] theorem State.setPor_accesses : (s.setPor v).accesses = s.accesses := rfl
@[simp] theorem State.setPor_cycles : (s.setPor v).cycles = s.cycles := rfl
end

section
variable (v : Bool)
@[simp] theorem State.setNmiPending_a : (s.setNmiPending v).a = s.a := rfl
@[simp] theorem State.setNmiPending_x : (s.setNmiPending v).x = s.x := rfl
@[simp] theorem State.setNmiPending_y : (s.setNmiPending v).y = s.y := rfl
@[simp] theorem State.setNmiPending_sp : (s.setNmiPending v).sp = s.sp := rfl
@[simp] theorem State.setNmiPending_pc : (s.setNmiPending v).pc = s.pc := rfl
@[simp] theorem State.setNmiPending_p : (s.setNmiPending v).p = s.p := rfl
@[simp] theorem State.setNmiPending_ddr : (s.setNmiPending v).ddr = s.ddr := rfl
@[simp] theorem State.setNmiPending_por : (s.setNmiPending v).por = s.por := rfl
@[simp] theorem State.setNmiPending_nmiPending : (s.setNmiPending v).nmiPending = v := rfl
@[simp] theorem State.setNmiPending_nmiPrev : (s.setNmiPending v).nmiPrev = s.nmiPrev := rfl
@[simp] theorem State.setNmiPending_iDelayed : (s.setNmiPending v).iDelayed = s.iDelayed := rfl
@[simp] theorem State.setNmiPending_afterEntry : (s.setNmiPending v).afterEntry = s.afterEntry := rfl
@[simp] theorem State.setNmiPending_afterReset : (s.setNmiPending v).afterReset = s.afterReset := rfl
@[simp] theorem State.setNmiPending_resCycles : (s.setNmiPending v).resCycles = s.resCycles := rfl
@[simp] theorem State.setNmiPending_mem : (s.setNmiPending v).mem = s.mem := rfl
@[simp] theorem State.setNmiPending_busMap : (s.setNmiPending v).busMap = s.busMap := rfl
@[simp] theorem State.setNmiPending_lines : (s.setNmiPending v).lines = s.lines := rfl
@[simp] theorem State.setNmiPending_portIn : (s.setNmiPending v).portIn = s.portIn := rfl
@[simp] theorem State.setNmiPending_draws : (s.setNmiPending v).draws = s.draws := rfl
@[simp] theorem State.setNmiPending_accesses : (s.setNmiPending v).accesses = s.accesses := rfl
@[simp] theorem State.setNmiPending_cycles : (s.setNmiPending v).cycles = s.cycles := rfl
end

section
variable (v : Bool)
@[simp] theorem State.setNmiPrev_a : (s.setNmiPrev v).a = s.a := rfl
@[simp] theorem State.setNmiPrev_x : (s.setNmiPrev v).x = s.x := rfl
@[simp] theorem State.setNmiPrev_y : (s.setNmiPrev v).y = s.y := rfl
@[simp] theorem State.setNmiPrev_sp : (s.setNmiPrev v).sp = s.sp := rfl
@[simp] theorem State.setNmiPrev_pc : (s.setNmiPrev v).pc = s.pc := rfl
@[simp] theorem State.setNmiPrev_p : (s.setNmiPrev v).p = s.p := rfl
@[simp] theorem State.setNmiPrev_ddr : (s.setNmiPrev v).ddr = s.ddr := rfl
@[simp] theorem State.setNmiPrev_por : (s.setNmiPrev v).por = s.por := rfl
@[simp] theorem State.setNmiPrev_nmiPending : (s.setNmiPrev v).nmiPending = s.nmiPending := rfl
@[simp] theorem State.setNmiPrev_nmiPrev : (s.setNmiPrev v).nmiPrev = v := rfl
@[simp] theorem State.setNmiPrev_iDelayed : (s.setNmiPrev v).iDelayed = s.iDelayed := rfl
@[simp] theorem State.setNmiPrev_afterEntry : (s.setNmiPrev v).afterEntry = s.afterEntry := rfl
@[simp] theorem State.setNmiPrev_afterReset : (s.setNmiPrev v).afterReset = s.afterReset := rfl
@[simp] theorem State.setNmiPrev_resCycles : (s.setNmiPrev v).resCycles = s.resCycles := rfl
@[simp] theorem State.setNmiPrev_mem : (s.setNmiPrev v).mem = s.mem := rfl
@[simp] theorem State.setNmiPrev_busMap : (s.setNmiPrev v).busMap = s.busMap := rfl
@[simp] theorem State.setNmiPrev_lines : (s.setNmiPrev v).lines = s.lines := rfl
@[simp] theorem State.setNmiPrev_portIn : (s.setNmiPrev v).portIn = s.portIn := rfl
@[simp] theorem State.setNmiPrev_draws : (s.setNmiPrev v).draws = s.draws := rfl
@[simp] theorem State.setNmiPrev_accesses : (s.setNmiPrev v).accesses = s.accesses := rfl
@[simp] theorem State.setNmiPrev_cycles : (s.setNmiPrev v).cycles = s.cycles := rfl
end

section
variable (v : Option Bool)
@[simp] theorem State.setIDelayed_a : (s.setIDelayed v).a = s.a := rfl
@[simp] theorem State.setIDelayed_x : (s.setIDelayed v).x = s.x := rfl
@[simp] theorem State.setIDelayed_y : (s.setIDelayed v).y = s.y := rfl
@[simp] theorem State.setIDelayed_sp : (s.setIDelayed v).sp = s.sp := rfl
@[simp] theorem State.setIDelayed_pc : (s.setIDelayed v).pc = s.pc := rfl
@[simp] theorem State.setIDelayed_p : (s.setIDelayed v).p = s.p := rfl
@[simp] theorem State.setIDelayed_ddr : (s.setIDelayed v).ddr = s.ddr := rfl
@[simp] theorem State.setIDelayed_por : (s.setIDelayed v).por = s.por := rfl
@[simp] theorem State.setIDelayed_nmiPending : (s.setIDelayed v).nmiPending = s.nmiPending := rfl
@[simp] theorem State.setIDelayed_nmiPrev : (s.setIDelayed v).nmiPrev = s.nmiPrev := rfl
@[simp] theorem State.setIDelayed_iDelayed : (s.setIDelayed v).iDelayed = v := rfl
@[simp] theorem State.setIDelayed_afterEntry : (s.setIDelayed v).afterEntry = s.afterEntry := rfl
@[simp] theorem State.setIDelayed_afterReset : (s.setIDelayed v).afterReset = s.afterReset := rfl
@[simp] theorem State.setIDelayed_resCycles : (s.setIDelayed v).resCycles = s.resCycles := rfl
@[simp] theorem State.setIDelayed_mem : (s.setIDelayed v).mem = s.mem := rfl
@[simp] theorem State.setIDelayed_busMap : (s.setIDelayed v).busMap = s.busMap := rfl
@[simp] theorem State.setIDelayed_lines : (s.setIDelayed v).lines = s.lines := rfl
@[simp] theorem State.setIDelayed_portIn : (s.setIDelayed v).portIn = s.portIn := rfl
@[simp] theorem State.setIDelayed_draws : (s.setIDelayed v).draws = s.draws := rfl
@[simp] theorem State.setIDelayed_accesses : (s.setIDelayed v).accesses = s.accesses := rfl
@[simp] theorem State.setIDelayed_cycles : (s.setIDelayed v).cycles = s.cycles := rfl
end

section
variable (v : Bool)
@[simp] theorem State.setAfterEntry_a : (s.setAfterEntry v).a = s.a := rfl
@[simp] theorem State.setAfterEntry_x : (s.setAfterEntry v).x = s.x := rfl
@[simp] theorem State.setAfterEntry_y : (s.setAfterEntry v).y = s.y := rfl
@[simp] theorem State.setAfterEntry_sp : (s.setAfterEntry v).sp = s.sp := rfl
@[simp] theorem State.setAfterEntry_pc : (s.setAfterEntry v).pc = s.pc := rfl
@[simp] theorem State.setAfterEntry_p : (s.setAfterEntry v).p = s.p := rfl
@[simp] theorem State.setAfterEntry_ddr : (s.setAfterEntry v).ddr = s.ddr := rfl
@[simp] theorem State.setAfterEntry_por : (s.setAfterEntry v).por = s.por := rfl
@[simp] theorem State.setAfterEntry_nmiPending : (s.setAfterEntry v).nmiPending = s.nmiPending := rfl
@[simp] theorem State.setAfterEntry_nmiPrev : (s.setAfterEntry v).nmiPrev = s.nmiPrev := rfl
@[simp] theorem State.setAfterEntry_iDelayed : (s.setAfterEntry v).iDelayed = s.iDelayed := rfl
@[simp] theorem State.setAfterEntry_afterEntry : (s.setAfterEntry v).afterEntry = v := rfl
@[simp] theorem State.setAfterEntry_afterReset : (s.setAfterEntry v).afterReset = s.afterReset := rfl
@[simp] theorem State.setAfterEntry_resCycles : (s.setAfterEntry v).resCycles = s.resCycles := rfl
@[simp] theorem State.setAfterEntry_mem : (s.setAfterEntry v).mem = s.mem := rfl
@[simp] theorem State.setAfterEntry_busMap : (s.setAfterEntry v).busMap = s.busMap := rfl
@[simp] theorem State.setAfterEntry_lines : (s.setAfterEntry v).lines = s.lines := rfl
@[simp] theorem State.setAfterEntry_portIn : (s.setAfterEntry v).portIn = s.portIn := rfl
@[simp] theorem State.setAfterEntry_draws : (s.setAfterEntry v).draws = s.draws := rfl
@[simp] theorem State.setAfterEntry_accesses : (s.setAfterEntry v).accesses = s.accesses := rfl
@[simp] theorem State.setAfterEntry_cycles : (s.setAfterEntry v).cycles = s.cycles := rfl
end

section
variable (v : Bool)
@[simp] theorem State.setAfterReset_a : (s.setAfterReset v).a = s.a := rfl
@[simp] theorem State.setAfterReset_x : (s.setAfterReset v).x = s.x := rfl
@[simp] theorem State.setAfterReset_y : (s.setAfterReset v).y = s.y := rfl
@[simp] theorem State.setAfterReset_sp : (s.setAfterReset v).sp = s.sp := rfl
@[simp] theorem State.setAfterReset_pc : (s.setAfterReset v).pc = s.pc := rfl
@[simp] theorem State.setAfterReset_p : (s.setAfterReset v).p = s.p := rfl
@[simp] theorem State.setAfterReset_ddr : (s.setAfterReset v).ddr = s.ddr := rfl
@[simp] theorem State.setAfterReset_por : (s.setAfterReset v).por = s.por := rfl
@[simp] theorem State.setAfterReset_nmiPending : (s.setAfterReset v).nmiPending = s.nmiPending := rfl
@[simp] theorem State.setAfterReset_nmiPrev : (s.setAfterReset v).nmiPrev = s.nmiPrev := rfl
@[simp] theorem State.setAfterReset_iDelayed : (s.setAfterReset v).iDelayed = s.iDelayed := rfl
@[simp] theorem State.setAfterReset_afterEntry : (s.setAfterReset v).afterEntry = s.afterEntry := rfl
@[simp] theorem State.setAfterReset_afterReset : (s.setAfterReset v).afterReset = v := rfl
@[simp] theorem State.setAfterReset_resCycles : (s.setAfterReset v).resCycles = s.resCycles := rfl
@[simp] theorem State.setAfterReset_mem : (s.setAfterReset v).mem = s.mem := rfl
@[simp] theorem State.setAfterReset_busMap : (s.setAfterReset v).busMap = s.busMap := rfl
@[simp] theorem State.setAfterReset_lines : (s.setAfterReset v).lines = s.lines := rfl
@[simp] theorem State.setAfterReset_portIn : (s.setAfterReset v).portIn = s.portIn := rfl
@[simp] theorem State.setAfterReset_draws : (s.setAfterReset v).draws = s.draws := rfl
@[simp] theorem State.setAfterReset_accesses : (s.setAfterReset v).accesses = s.accesses := rfl
@[simp] theorem State.setAfterReset_cycles : (s.setAfterReset v).cycles = s.cycles := rfl
end

section
variable (v : Nat)
@[simp] theorem State.setResCycles_a : (s.setResCycles v).a = s.a := rfl
@[simp] theorem State.setResCycles_x : (s.setResCycles v).x = s.x := rfl
@[simp] theorem State.setResCycles_y : (s.setResCycles v).y = s.y := rfl
@[simp] theorem State.setResCycles_sp : (s.setResCycles v).sp = s.sp := rfl
@[simp] theorem State.setResCycles_pc : (s.setResCycles v).pc = s.pc := rfl
@[simp] theorem State.setResCycles_p : (s.setResCycles v).p = s.p := rfl
@[simp] theorem State.setResCycles_ddr : (s.setResCycles v).ddr = s.ddr := rfl
@[simp] theorem State.setResCycles_por : (s.setResCycles v).por = s.por := rfl
@[simp] theorem State.setResCycles_nmiPending : (s.setResCycles v).nmiPending = s.nmiPending := rfl
@[simp] theorem State.setResCycles_nmiPrev : (s.setResCycles v).nmiPrev = s.nmiPrev := rfl
@[simp] theorem State.setResCycles_iDelayed : (s.setResCycles v).iDelayed = s.iDelayed := rfl
@[simp] theorem State.setResCycles_afterEntry : (s.setResCycles v).afterEntry = s.afterEntry := rfl
@[simp] theorem State.setResCycles_afterReset : (s.setResCycles v).afterReset = s.afterReset := rfl
@[simp] theorem State.setResCycles_resCycles : (s.setResCycles v).resCycles = v := rfl
@[simp] theorem State.setResCycles_mem : (s.setResCycles v).mem = s.mem := rfl
@[simp] theorem State.setResCycles_busMap : (s.setResCycles v).busMap = s.busMap := rfl
@[simp] theorem State.setResCycles_lines : (s.setResCycles v).lines = s.lines := rfl
@[simp] theorem State.setResCycles_portIn : (s.setResCycles v).portIn = s.portIn := rfl
@[simp] theorem State.setResCycles_draws : (s.setResCycles v).draws = s.draws := rfl
@[simp] theorem State.setResCycles_accesses : (s.setResCycles v).accesses = s.accesses := rfl
@[simp] theorem State.setResCycles_cycles : (s.setResCycles v).cycles = s.cycles := rfl
end

section
variable (v : Memory)
@[simp] theorem State.setMem_a : (s.setMem v).a = s.a := rfl
@[simp] theorem State.setMem_x : (s.setMem v).x = s.x := rfl
@[simp] theorem State.setMem_y : (s.setMem v).y = s.y := rfl
@[simp] theorem State.setMem_sp : (s.setMem v).sp = s.sp := rfl
@[simp] theorem State.setMem_pc : (s.setMem v).pc = s.pc := rfl
@[simp] theorem State.setMem_p : (s.setMem v).p = s.p := rfl
@[simp] theorem State.setMem_ddr : (s.setMem v).ddr = s.ddr := rfl
@[simp] theorem State.setMem_por : (s.setMem v).por = s.por := rfl
@[simp] theorem State.setMem_nmiPending : (s.setMem v).nmiPending = s.nmiPending := rfl
@[simp] theorem State.setMem_nmiPrev : (s.setMem v).nmiPrev = s.nmiPrev := rfl
@[simp] theorem State.setMem_iDelayed : (s.setMem v).iDelayed = s.iDelayed := rfl
@[simp] theorem State.setMem_afterEntry : (s.setMem v).afterEntry = s.afterEntry := rfl
@[simp] theorem State.setMem_afterReset : (s.setMem v).afterReset = s.afterReset := rfl
@[simp] theorem State.setMem_resCycles : (s.setMem v).resCycles = s.resCycles := rfl
@[simp] theorem State.setMem_mem : (s.setMem v).mem = v := rfl
@[simp] theorem State.setMem_busMap : (s.setMem v).busMap = s.busMap := rfl
@[simp] theorem State.setMem_lines : (s.setMem v).lines = s.lines := rfl
@[simp] theorem State.setMem_portIn : (s.setMem v).portIn = s.portIn := rfl
@[simp] theorem State.setMem_draws : (s.setMem v).draws = s.draws := rfl
@[simp] theorem State.setMem_accesses : (s.setMem v).accesses = s.accesses := rfl
@[simp] theorem State.setMem_cycles : (s.setMem v).cycles = s.cycles := rfl
end

section
variable (v : List Lines)
@[simp] theorem State.setLines_a : (s.setLines v).a = s.a := rfl
@[simp] theorem State.setLines_x : (s.setLines v).x = s.x := rfl
@[simp] theorem State.setLines_y : (s.setLines v).y = s.y := rfl
@[simp] theorem State.setLines_sp : (s.setLines v).sp = s.sp := rfl
@[simp] theorem State.setLines_pc : (s.setLines v).pc = s.pc := rfl
@[simp] theorem State.setLines_p : (s.setLines v).p = s.p := rfl
@[simp] theorem State.setLines_ddr : (s.setLines v).ddr = s.ddr := rfl
@[simp] theorem State.setLines_por : (s.setLines v).por = s.por := rfl
@[simp] theorem State.setLines_nmiPending : (s.setLines v).nmiPending = s.nmiPending := rfl
@[simp] theorem State.setLines_nmiPrev : (s.setLines v).nmiPrev = s.nmiPrev := rfl
@[simp] theorem State.setLines_iDelayed : (s.setLines v).iDelayed = s.iDelayed := rfl
@[simp] theorem State.setLines_afterEntry : (s.setLines v).afterEntry = s.afterEntry := rfl
@[simp] theorem State.setLines_afterReset : (s.setLines v).afterReset = s.afterReset := rfl
@[simp] theorem State.setLines_resCycles : (s.setLines v).resCycles = s.resCycles := rfl
@[simp] theorem State.setLines_mem : (s.setLines v).mem = s.mem := rfl
@[simp] theorem State.setLines_busMap : (s.setLines v).busMap = s.busMap := rfl
@[simp] theorem State.setLines_lines : (s.setLines v).lines = v := rfl
@[simp] theorem State.setLines_portIn : (s.setLines v).portIn = s.portIn := rfl
@[simp] theorem State.setLines_draws : (s.setLines v).draws = s.draws := rfl
@[simp] theorem State.setLines_accesses : (s.setLines v).accesses = s.accesses := rfl
@[simp] theorem State.setLines_cycles : (s.setLines v).cycles = s.cycles := rfl
end

section
variable (v : List (BitVec 6))
@[simp] theorem State.setPortIn_a : (s.setPortIn v).a = s.a := rfl
@[simp] theorem State.setPortIn_x : (s.setPortIn v).x = s.x := rfl
@[simp] theorem State.setPortIn_y : (s.setPortIn v).y = s.y := rfl
@[simp] theorem State.setPortIn_sp : (s.setPortIn v).sp = s.sp := rfl
@[simp] theorem State.setPortIn_pc : (s.setPortIn v).pc = s.pc := rfl
@[simp] theorem State.setPortIn_p : (s.setPortIn v).p = s.p := rfl
@[simp] theorem State.setPortIn_ddr : (s.setPortIn v).ddr = s.ddr := rfl
@[simp] theorem State.setPortIn_por : (s.setPortIn v).por = s.por := rfl
@[simp] theorem State.setPortIn_nmiPending : (s.setPortIn v).nmiPending = s.nmiPending := rfl
@[simp] theorem State.setPortIn_nmiPrev : (s.setPortIn v).nmiPrev = s.nmiPrev := rfl
@[simp] theorem State.setPortIn_iDelayed : (s.setPortIn v).iDelayed = s.iDelayed := rfl
@[simp] theorem State.setPortIn_afterEntry : (s.setPortIn v).afterEntry = s.afterEntry := rfl
@[simp] theorem State.setPortIn_afterReset : (s.setPortIn v).afterReset = s.afterReset := rfl
@[simp] theorem State.setPortIn_resCycles : (s.setPortIn v).resCycles = s.resCycles := rfl
@[simp] theorem State.setPortIn_mem : (s.setPortIn v).mem = s.mem := rfl
@[simp] theorem State.setPortIn_busMap : (s.setPortIn v).busMap = s.busMap := rfl
@[simp] theorem State.setPortIn_lines : (s.setPortIn v).lines = s.lines := rfl
@[simp] theorem State.setPortIn_portIn : (s.setPortIn v).portIn = v := rfl
@[simp] theorem State.setPortIn_draws : (s.setPortIn v).draws = s.draws := rfl
@[simp] theorem State.setPortIn_accesses : (s.setPortIn v).accesses = s.accesses := rfl
@[simp] theorem State.setPortIn_cycles : (s.setPortIn v).cycles = s.cycles := rfl
end

section
variable (v : Nat)
@[simp] theorem State.setDraws_a : (s.setDraws v).a = s.a := rfl
@[simp] theorem State.setDraws_x : (s.setDraws v).x = s.x := rfl
@[simp] theorem State.setDraws_y : (s.setDraws v).y = s.y := rfl
@[simp] theorem State.setDraws_sp : (s.setDraws v).sp = s.sp := rfl
@[simp] theorem State.setDraws_pc : (s.setDraws v).pc = s.pc := rfl
@[simp] theorem State.setDraws_p : (s.setDraws v).p = s.p := rfl
@[simp] theorem State.setDraws_ddr : (s.setDraws v).ddr = s.ddr := rfl
@[simp] theorem State.setDraws_por : (s.setDraws v).por = s.por := rfl
@[simp] theorem State.setDraws_nmiPending : (s.setDraws v).nmiPending = s.nmiPending := rfl
@[simp] theorem State.setDraws_nmiPrev : (s.setDraws v).nmiPrev = s.nmiPrev := rfl
@[simp] theorem State.setDraws_iDelayed : (s.setDraws v).iDelayed = s.iDelayed := rfl
@[simp] theorem State.setDraws_afterEntry : (s.setDraws v).afterEntry = s.afterEntry := rfl
@[simp] theorem State.setDraws_afterReset : (s.setDraws v).afterReset = s.afterReset := rfl
@[simp] theorem State.setDraws_resCycles : (s.setDraws v).resCycles = s.resCycles := rfl
@[simp] theorem State.setDraws_mem : (s.setDraws v).mem = s.mem := rfl
@[simp] theorem State.setDraws_busMap : (s.setDraws v).busMap = s.busMap := rfl
@[simp] theorem State.setDraws_lines : (s.setDraws v).lines = s.lines := rfl
@[simp] theorem State.setDraws_portIn : (s.setDraws v).portIn = s.portIn := rfl
@[simp] theorem State.setDraws_draws : (s.setDraws v).draws = v := rfl
@[simp] theorem State.setDraws_accesses : (s.setDraws v).accesses = s.accesses := rfl
@[simp] theorem State.setDraws_cycles : (s.setDraws v).cycles = s.cycles := rfl
end

section
variable (v : List Access)
@[simp] theorem State.setAccesses_a : (s.setAccesses v).a = s.a := rfl
@[simp] theorem State.setAccesses_x : (s.setAccesses v).x = s.x := rfl
@[simp] theorem State.setAccesses_y : (s.setAccesses v).y = s.y := rfl
@[simp] theorem State.setAccesses_sp : (s.setAccesses v).sp = s.sp := rfl
@[simp] theorem State.setAccesses_pc : (s.setAccesses v).pc = s.pc := rfl
@[simp] theorem State.setAccesses_p : (s.setAccesses v).p = s.p := rfl
@[simp] theorem State.setAccesses_ddr : (s.setAccesses v).ddr = s.ddr := rfl
@[simp] theorem State.setAccesses_por : (s.setAccesses v).por = s.por := rfl
@[simp] theorem State.setAccesses_nmiPending : (s.setAccesses v).nmiPending = s.nmiPending := rfl
@[simp] theorem State.setAccesses_nmiPrev : (s.setAccesses v).nmiPrev = s.nmiPrev := rfl
@[simp] theorem State.setAccesses_iDelayed : (s.setAccesses v).iDelayed = s.iDelayed := rfl
@[simp] theorem State.setAccesses_afterEntry : (s.setAccesses v).afterEntry = s.afterEntry := rfl
@[simp] theorem State.setAccesses_afterReset : (s.setAccesses v).afterReset = s.afterReset := rfl
@[simp] theorem State.setAccesses_resCycles : (s.setAccesses v).resCycles = s.resCycles := rfl
@[simp] theorem State.setAccesses_mem : (s.setAccesses v).mem = s.mem := rfl
@[simp] theorem State.setAccesses_busMap : (s.setAccesses v).busMap = s.busMap := rfl
@[simp] theorem State.setAccesses_lines : (s.setAccesses v).lines = s.lines := rfl
@[simp] theorem State.setAccesses_portIn : (s.setAccesses v).portIn = s.portIn := rfl
@[simp] theorem State.setAccesses_draws : (s.setAccesses v).draws = s.draws := rfl
@[simp] theorem State.setAccesses_accesses : (s.setAccesses v).accesses = v := rfl
@[simp] theorem State.setAccesses_cycles : (s.setAccesses v).cycles = s.cycles := rfl
end

section
variable (v : Access)
@[simp] theorem State.logAccess_a : (s.logAccess v).a = s.a := rfl
@[simp] theorem State.logAccess_x : (s.logAccess v).x = s.x := rfl
@[simp] theorem State.logAccess_y : (s.logAccess v).y = s.y := rfl
@[simp] theorem State.logAccess_sp : (s.logAccess v).sp = s.sp := rfl
@[simp] theorem State.logAccess_pc : (s.logAccess v).pc = s.pc := rfl
@[simp] theorem State.logAccess_p : (s.logAccess v).p = s.p := rfl
@[simp] theorem State.logAccess_ddr : (s.logAccess v).ddr = s.ddr := rfl
@[simp] theorem State.logAccess_por : (s.logAccess v).por = s.por := rfl
@[simp] theorem State.logAccess_nmiPending : (s.logAccess v).nmiPending = s.nmiPending := rfl
@[simp] theorem State.logAccess_nmiPrev : (s.logAccess v).nmiPrev = s.nmiPrev := rfl
@[simp] theorem State.logAccess_iDelayed : (s.logAccess v).iDelayed = s.iDelayed := rfl
@[simp] theorem State.logAccess_afterEntry : (s.logAccess v).afterEntry = s.afterEntry := rfl
@[simp] theorem State.logAccess_afterReset : (s.logAccess v).afterReset = s.afterReset := rfl
@[simp] theorem State.logAccess_resCycles : (s.logAccess v).resCycles = s.resCycles := rfl
@[simp] theorem State.logAccess_mem : (s.logAccess v).mem = s.mem := rfl
@[simp] theorem State.logAccess_busMap : (s.logAccess v).busMap = s.busMap := rfl
@[simp] theorem State.logAccess_lines : (s.logAccess v).lines = s.lines := rfl
@[simp] theorem State.logAccess_portIn : (s.logAccess v).portIn = s.portIn := rfl
@[simp] theorem State.logAccess_draws : (s.logAccess v).draws = s.draws := rfl
@[simp] theorem State.logAccess_accesses : (s.logAccess v).accesses = s.accesses ++ [v] := rfl
@[simp] theorem State.logAccess_cycles : (s.logAccess v).cycles = s.cycles := rfl
end

section
variable (v : Nat)
@[simp] theorem State.tick_a : (s.tick v).a = s.a := rfl
@[simp] theorem State.tick_x : (s.tick v).x = s.x := rfl
@[simp] theorem State.tick_y : (s.tick v).y = s.y := rfl
@[simp] theorem State.tick_sp : (s.tick v).sp = s.sp := rfl
@[simp] theorem State.tick_pc : (s.tick v).pc = s.pc := rfl
@[simp] theorem State.tick_p : (s.tick v).p = s.p := rfl
@[simp] theorem State.tick_ddr : (s.tick v).ddr = s.ddr := rfl
@[simp] theorem State.tick_por : (s.tick v).por = s.por := rfl
@[simp] theorem State.tick_nmiPending : (s.tick v).nmiPending = s.nmiPending := rfl
@[simp] theorem State.tick_nmiPrev : (s.tick v).nmiPrev = s.nmiPrev := rfl
@[simp] theorem State.tick_iDelayed : (s.tick v).iDelayed = s.iDelayed := rfl
@[simp] theorem State.tick_afterEntry : (s.tick v).afterEntry = s.afterEntry := rfl
@[simp] theorem State.tick_afterReset : (s.tick v).afterReset = s.afterReset := rfl
@[simp] theorem State.tick_resCycles : (s.tick v).resCycles = s.resCycles := rfl
@[simp] theorem State.tick_mem : (s.tick v).mem = s.mem := rfl
@[simp] theorem State.tick_busMap : (s.tick v).busMap = s.busMap := rfl
@[simp] theorem State.tick_lines : (s.tick v).lines = s.lines := rfl
@[simp] theorem State.tick_portIn : (s.tick v).portIn = s.portIn := rfl
@[simp] theorem State.tick_draws : (s.tick v).draws = s.draws := rfl
@[simp] theorem State.tick_accesses : (s.tick v).accesses = s.accesses := rfl
@[simp] theorem State.tick_cycles : (s.tick v).cycles = s.cycles + v := rfl
end

end Sys2Proof.Machine
end

