-- ==== Sys2Proof/Laws/Ops.lean ====
section
/-! SUPPORT. What each shared operation over memory, port and stack can do, said once. -/

namespace Sys2Proof.Machine

/-! ### Frames as relations -/

theorem SameButReads.refl (s : State) : SameButReads s s := rfl

theorem SameButReads.trans {s t u : State} (h : SameButReads s t) (k : SameButReads t u) : SameButReads s u := by
  unfold SameButReads at *
  rw [k, h]

theorem sameButReads_logAccess (s : State) (a : Access) : SameButReads s (s.logAccess a) := rfl
theorem sameButReads_setDraws (s : State) (n : Nat) : SameButReads s (s.setDraws n) := rfl
theorem sameButReads_setPortIn (s : State) (l : List (BitVec 6)) : SameButReads s (s.setPortIn l) := rfl

section
variable {s t : State}
theorem SameButReads.a_eq (h : SameButReads s t) : t.a = s.a := by rw [h]
theorem SameButReads.x_eq (h : SameButReads s t) : t.x = s.x := by rw [h]
theorem SameButReads.y_eq (h : SameButReads s t) : t.y = s.y := by rw [h]
theorem SameButReads.sp_eq (h : SameButReads s t) : t.sp = s.sp := by rw [h]
theorem SameButReads.pc_eq (h : SameButReads s t) : t.pc = s.pc := by rw [h]
theorem SameButReads.p_eq (h : SameButReads s t) : t.p = s.p := by rw [h]
theorem SameButReads.ddr_eq (h : SameButReads s t) : t.ddr = s.ddr := by rw [h]
theorem SameButReads.por_eq (h : SameButReads s t) : t.por = s.por := by rw [h]
theorem SameButReads.nmiPending_eq (h : SameButReads s t) : t.nmiPending = s.nmiPending := by rw [h]
theorem SameButReads.nmiPrev_eq (h : SameButReads s t) : t.nmiPrev = s.nmiPrev := by rw [h]
theorem SameButReads.iDelayed_eq (h : SameButReads s t) : t.iDelayed = s.iDelayed := by rw [h]
theorem SameButReads.afterEntry_eq (h : SameButReads s t) : t.afterEntry = s.afterEntry := by rw [h]
theorem SameButReads.afterReset_eq (h : SameButReads s t) : t.afterReset = s.afterReset := by rw [h]
theorem SameButReads.resCycles_eq (h : SameButReads s t) : t.resCycles = s.resCycles := by rw [h]
theorem SameButReads.mem_eq (h : SameButReads s t) : t.mem = s.mem := by rw [h]
theorem SameButReads.busMap_eq (h : SameButReads s t) : t.busMap = s.busMap := by rw [h]
theorem SameButReads.lines_eq (h : SameButReads s t) : t.lines = s.lines := by rw [h]
theorem SameButReads.cycles_eq (h : SameButReads s t) : t.cycles = s.cycles := by rw [h]

theorem SameButReads.byteAt_eq (h : SameButReads s t) (a : Word) : byteAt t a = byteAt s a := by rw [h]; rfl

theorem SameButReads.busKind_eq (h : SameButReads s t) (a : Word) : busKind t a = busKind s a := by rw [h]; rfl

theorem SameButReads.stores_eq (h : SameButReads s t) (a : Word) : stores t a = stores s a := by rw [h]; rfl

theorem SameButReads.plainRead_eq (h : SameButReads s t) (a : Word) : plainRead t a = plainRead s a := by rw [h]; rfl

theorem SameButReads.sameBytes (h : SameButReads s t) : SameBytes s t := h.byteAt_eq

end

theorem SameButStores.refl (s : State) : SameButStores s s := rfl

theorem SameButReads.sameButStores {s t : State} (h : SameButReads s t) : SameButStores s t := by
  unfold SameButReads SameButStores at *
  rw [h]

theorem SameButStores.trans {s t u : State} (h : SameButStores s t) (k : SameButStores t u) : SameButStores s u := by
  unfold SameButStores at *
  rw [k, h]

section
variable {s t : State}
theorem SameButStores.a_eq (h : SameButStores s t) : t.a = s.a := by rw [h]
theorem SameButStores.x_eq (h : SameButStores s t) : t.x = s.x := by rw [h]
theorem SameButStores.y_eq (h : SameButStores s t) : t.y = s.y := by rw [h]
theorem SameButStores.sp_eq (h : SameButStores s t) : t.sp = s.sp := by rw [h]
theorem SameButStores.pc_eq (h : SameButStores s t) : t.pc = s.pc := by rw [h]
theorem SameButStores.p_eq (h : SameButStores s t) : t.p = s.p := by rw [h]
theorem SameButStores.nmiPending_eq (h : SameButStores s t) : t.nmiPending = s.nmiPending := by rw [h]
theorem SameButStores.nmiPrev_eq (h : SameButStores s t) : t.nmiPrev = s.nmiPrev := by rw [h]
theorem SameButStores.iDelayed_eq (h : SameButStores s t) : t.iDelayed = s.iDelayed := by rw [h]
theorem SameButStores.afterEntry_eq (h : SameButStores s t) : t.afterEntry = s.afterEntry := by rw [h]
theorem SameButStores.afterReset_eq (h : SameButStores s t) : t.afterReset = s.afterReset := by rw [h]
theorem SameButStores.resCycles_eq (h : SameButStores s t) : t.resCycles = s.resCycles := by rw [h]
theorem SameButStores.busMap_eq (h : SameButStores s t) : t.busMap = s.busMap := by rw [h]
theorem SameButStores.lines_eq (h : SameButStores s t) : t.lines = s.lines := by rw [h]
theorem SameButStores.cycles_eq (h : SameButStores s t) : t.cycles = s.cycles := by rw [h]

theorem SameButStores.busKind_eq (h : SameButStores s t) (a : Word) : busKind t a = busKind s a := by rw [h]; rfl

theorem SameButStores.stores_eq (h : SameButStores s t) (a : Word) : stores t a = stores s a := by rw [h]; rfl

end

/-! ### Reads -/

theorem drawByte_same (s : State) : SameButReads s (drawByte s).2 := rfl

theorem portPins_same (s : State) : SameButReads s (portPins s).2 := by
  unfold portPins
  split <;> rfl

theorem busRead_same (addr : Word) (s : State) : SameButReads s (busRead addr s).2 := by
  unfold busRead
  split
  · exact portPins_same s
  · split <;> rfl

/-- A read changes nothing but samples, draws and the log. -/
theorem memRead_same (addr : Word) (s : State) : SameButReads s (memRead addr s).2 :=
  (busRead_same addr s).trans (sameButReads_logAccess _ _)

/-- A read of a plain location gives the byte stored there and is logged; nothing else happens. -/
theorem memRead_plain {addr : Word} {s : State} (h : plainRead s addr = true) :
    memRead addr s = (byteAt s addr, s.logAccess ⟨.read, addr, byteAt s addr⟩) := by
  have hb : busRead addr s = (byteAt s addr, s) := by
    unfold plainRead at h
    unfold busRead
    simp only [Bool.and_eq_true, bne_iff_ne, ne_eq, Bool.or_eq_true, beq_iff_eq] at h
    rw [if_neg h.1, if_neg]
    rintro ⟨h0, hd⟩
    exact h.2.elim h0 (fun hk => hk hd)
  simp only [memRead, hb]

/-- The free-value counter never goes back. -/
theorem memRead_draws (addr : Word) (s : State) : s.draws ≤ (memRead addr s).2.draws := by
  show s.draws ≤ (busRead addr s).2.draws
  unfold busRead
  split
  · unfold portPins
    split
    · exact le_refl _
    · exact Nat.le_succ _
  · split
    · exact Nat.le_succ _
    · exact le_refl _

/-- A read is one access more in the log. -/
theorem memRead_accesses (addr : Word) (s : State) :
    (memRead addr s).2.accesses = s.accesses ++ [⟨.read, addr, (memRead addr s).1⟩] := by
  show (busRead addr s).2.accesses ++ _ = _
  have : (busRead addr s).2.accesses = s.accesses := by
    unfold busRead
    split
    · unfold portPins
      split <;> rfl
    · split <;> rfl
  rw [this]
  rfl

theorem read16_same (addr : Word) (s : State) : SameButReads s (read16 addr s).2 :=
  (memRead_same _ _).trans (memRead_same _ _)

theorem read16ZP_same (z : Byte) (s : State) : SameButReads s (read16ZP z s).2 :=
  (memRead_same _ _).trans (memRead_same _ _)

theorem readJumpPointer_same (w : Word) (s : State) : SameButReads s (readJumpPointer w s).2 :=
  (memRead_same _ _).trans (memRead_same _ _)

theorem read16_draws (addr : Word) (s : State) : s.draws ≤ (read16 addr s).2.draws :=
  (memRead_draws _ _).trans (memRead_draws _ _)

theorem read16ZP_draws (z : Byte) (s : State) : s.draws ≤ (read16ZP z s).2.draws :=
  (memRead_draws _ _).trans (memRead_draws _ _)

/-- Forming an effective address changes nothing but what its pointer reads use up and record. -/
theorem resolve_same (m : AddrMode) (s : State) : SameButReads s (resolve m s).st := by
  cases m <;> first | rfl | exact read16ZP_same _ _

theorem resolve_draws (m : AddrMode) (s : State) : s.draws ≤ (resolve m s).st.draws := by
  cases m <;> first | exact le_refl _ | exact read16ZP_draws _ _

/-- Reading an operand changes nothing but what its reads use up and record. -/
theorem readData_same (d : DataOperand) (s : State) : SameButReads s (readData d s).st := by
  cases d with
  | imm m => rfl
  | mem m => exact (resolve_same m s).trans (memRead_same _ _)

theorem readData_draws (d : DataOperand) (s : State) : s.draws ≤ (readData d s).st.draws := by
  cases d with
  | imm m => exact le_refl _
  | mem m => exact (resolve_draws m s).trans (memRead_draws _ _)

/-! ### Writes -/

theorem storeByte_same (addr : Word) (v : Byte) (s : State) : SameButStores s (storeByte addr v s) := by
  unfold storeByte
  split
  · rfl
  · split
    · rfl
    · split <;> rfl

theorem memWrite_same (addr : Word) (v : Byte) (s : State) : SameButStores s (memWrite addr v s) := by
  have h := storeByte_same addr v s
  unfold SameButStores at *
  unfold memWrite State.logAccess
  rw [h]

@[simp] theorem memWrite_accesses (addr : Word) (v : Byte) (s : State) :
    (memWrite addr v s).accesses = s.accesses ++ [⟨.write, addr, v⟩] := by
  have : (storeByte addr v s).accesses = s.accesses := by
    unfold storeByte
    split
    · rfl
    · split
      · rfl
      · split <;> rfl
  simp [memWrite, this]

@[simp] theorem memWrite_draws (addr : Word) (v : Byte) (s : State) : (memWrite addr v s).draws = s.draws := by
  show (storeByte addr v s).draws = s.draws
  unfold storeByte
  split
  · rfl
  · split
    · rfl
    · split <;> rfl

/-- What a write leaves at every address (R62). -/
theorem storeByte_byteAt (addr : Word) (v : Byte) (s : State) (a : Word) :
    byteAt (storeByte addr v s) a = if a = addr ∧ stores s addr = true then v else byteAt s a := by
  unfold storeByte stores
  by_cases h0 : addr = 0#16
  · subst h0
    by_cases ha : a = 0#16 <;> simp [byteAt, ha]
  by_cases h1 : addr = 1#16
  · subst h1
    by_cases ha : a = 1#16 <;> by_cases hb : a = 0#16 <;> simp_all [byteAt]
  rw [if_neg h0, if_neg h1]
  by_cases hk : busKind s addr = .ram
  · rw [if_pos hk]
    by_cases ha : a = addr
    · subst ha
      simp [byteAt, h0, h1, hk]
    · have hn : a.toNat ≠ addr.toNat := fun h => ha (BitVec.eq_of_toNat_eq h)
      simp [byteAt, ha, Memory.read_write_other _ _ hn]
  · rw [if_neg hk]
    simp [h0, h1, hk]

/-- A write stores exactly one byte, where the location stores. -/
theorem memWrite_stored (addr : Word) (v : Byte) (s : State) : StoredByte addr v s (memWrite addr v s) := by
  have h : ∀ a, byteAt (memWrite addr v s) a = byteAt (storeByte addr v s) a := fun a => rfl
  constructor
  · rw [h, storeByte_byteAt]
    simp
  · intro a ha
    rw [h, storeByte_byteAt]
    simp [ha]

/-- A write keeps the canonical form of memory. -/
theorem storeByte_wf {addr : Word} {v : Byte} {s : State} (h : s.mem.wf = true) :
    (storeByte addr v s).mem.wf = true := by
  unfold storeByte
  split
  · exact h
  · split
    · exact h
    · split
      · rename_i h0 h1 _
        refine Memory.write_wf v h ?_ addr.isLt
        have e0 : addr.toNat ≠ 0 := fun e => h0 (BitVec.eq_of_toNat_eq e)
        have e1 : addr.toNat ≠ 1 := fun e => h1 (BitVec.eq_of_toNat_eq e)
        omega
      · exact h

theorem memWrite_wf {addr : Word} {v : Byte} {s : State} (h : s.mem.wf = true) :
    (memWrite addr v s).mem.wf = true :=
  storeByte_wf (s := s) h

/-! ### The stack -/

theorem push_mem_wf {v : Byte} {s : State} (h : s.mem.wf = true) : (push v s).mem.wf = true :=
  memWrite_wf h

@[simp] theorem push_sp (v : Byte) (s : State) : (push v s).sp = s.sp - 1 := rfl

@[simp] theorem pull_sp (s : State) : (pull s).2.sp = s.sp + 1 :=
  (memRead_same _ _).sp_eq

/-- A push changes SP and one byte, and nothing else. -/
theorem push_same (v : Byte) (s : State) : SameButStores { s with sp := s.sp - 1 } (push v s) := by
  have h := memWrite_same (stackAddr s.sp) v s
  unfold SameButStores at *
  unfold push State.setSp
  rw [h]

theorem push_stored (v : Byte) (s : State) : StoredByte (stackAddr s.sp) v s (push v s) :=
  memWrite_stored _ _ _

@[simp] theorem push_draws (v : Byte) (s : State) : (push v s).draws = s.draws :=
  memWrite_draws _ _ _

/-- A pull changes SP and what its read uses up and records, and nothing else. -/
theorem pull_same (s : State) : SameButReads { s with sp := s.sp + 1 } (pull s).2 :=
  memRead_same _ _

theorem pull_draws (s : State) : s.draws ≤ (pull s).2.draws :=
  memRead_draws (stackAddr (s.sp + 1)) (s.setSp (s.sp + 1))

theorem stackAddr_plain {s : State} (h : StackIsRam s) (sp : Byte) : plainRead s (stackAddr sp) = true := by
  simp [plainRead, stackAddr_ne_one, h sp]

theorem stackAddr_stores {s : State} (h : StackIsRam s) (sp : Byte) : stores s (stackAddr sp) = true := by
  simp [stores, h sp]

/-- On a stack in RAM a push stores its byte. -/
theorem push_byteAt {s : State} (h : StackIsRam s) (v : Byte) (a : Word) :
    byteAt (push v s) a = if a = stackAddr s.sp then v else byteAt s a := by
  show byteAt (storeByte (stackAddr s.sp) v s) a = _
  rw [storeByte_byteAt]
  simp [stackAddr_stores h]

theorem push_stackIsRam {s : State} (h : StackIsRam s) (v : Byte) : StackIsRam (push v s) := by
  intro sp
  rw [(push_same v s).busKind_eq]
  exact h sp

/-- On a stack in RAM a pull gives the byte above SP. -/
theorem pull_eq {s : State} (h : StackIsRam s) :
    pull s = (byteAt s (stackAddr (s.sp + 1)),
      (s.setSp (s.sp + 1)).logAccess ⟨.read, stackAddr (s.sp + 1), byteAt s (stackAddr (s.sp + 1))⟩) :=
  memRead_plain (s := s.setSp (s.sp + 1)) (stackAddr_plain (s := s.setSp (s.sp + 1)) h _)

/-! ### Exceptions -/

theorem pushPc_same (pc : Word) (s : State) : SameButStores { s with sp := s.sp - 2 } (pushPc pc s) := by
  have h1 := push_same (highByte pc) s
  have h2 := push_same (lowByte pc) (push (highByte pc) s)
  unfold pushPc
  have e : ({ push (highByte pc) s with sp := (push (highByte pc) s).sp - 1 } : State) =
      { push (highByte pc) s with sp := s.sp - 2 } := by
    rw [push_sp, show (2 : Byte) = 1 + 1 from rfl, BitVec.sub_sub]
  rw [e] at h2
  refine SameButStores.trans ?_ h2
  unfold SameButStores at *
  rw [h1]

theorem pullPc_same (s : State) : SameButReads { s with sp := s.sp + 2 } (pullPc s).2 := by
  have h1 := pull_same s
  have h2 := pull_same (pull s).2
  have e : ({ (pull s).2 with sp := (pull s).2.sp + 1 } : State) = { (pull s).2 with sp := s.sp + 2 } := by
    rw [pull_sp, show (2 : Byte) = 1 + 1 from rfl, BitVec.add_assoc]
  rw [e] at h2
  refine SameButReads.trans ?_ h2
  unfold SameButReads at *
  rw [h1]

/-- Taking an exception: SP down by 3, I raised if the event raises it, PC at the vector's word; nothing else but the
three stack bytes changes. -/
theorem takeException_same (vector : Word) (brk setsI : Bool) (s : State) :
    SameButStores
      { s with
        sp := s.sp - 3, p := { s.p with i := s.p.i || setsI }
        pc := (takeException vector brk setsI s).pc, cycles := s.cycles + 7 }
      (takeException vector brk setsI s) := by
  have h1 := pushPc_same s.pc s
  have h2 := push_same (statusByte s.p brk) (pushPc s.pc s)
  have h3 := read16_same vector
    ((push (statusByte s.p brk) (pushPc s.pc s)).setP { s.p with i := s.p.i || setsI })
  have hsp : (pushPc s.pc s).sp - 1 = s.sp - 3 := by
    rw [h1.sp_eq]
    show s.sp - 2 - 1 = s.sp - 3
    rw [show (3 : Byte) = 2 + 1 from rfl, BitVec.sub_sub]
  rw [hsp] at h2
  simp only [takeException]
  unfold SameButStores SameButReads at *
  simp only [State.tick, State.setPc]
  rw [h3]
  simp only [State.setP]
  rw [h2, h1]

/-- Returning from an exception: SP up by 3, P and PC from the stack; nothing else changes. -/
theorem returnFromException_same (s : State) :
    SameButReads
      { s with
        sp := s.sp + 3, p := (returnFromException s).p, pc := (returnFromException s).pc, cycles := s.cycles + 6 }
      (returnFromException s) := by
  have h1 := pull_same s
  have h2 := pullPc_same ((pull s).2.setP (statusOfByte (pull s).1))
  have hsp : ((pull s).2.setP (statusOfByte (pull s).1)).sp + 2 = s.sp + 3 := by
    rw [State.setP_sp, pull_sp, BitVec.add_assoc]
    rfl
  rw [hsp] at h2
  simp only [returnFromException]
  unfold SameButReads at *
  simp only [State.tick, State.setPc]
  rw [h2]
  simp only [State.setP]
  rw [h1]

end Sys2Proof.Machine
end

