-- ==== Sys2Proof/Laws/Effects.lean ====
section
/-! SUPPORT. What the shared operations do to everything but the registers, said once: the stores they make and where, the
log, the samples and free values used up. A law per operation, to be composed. -/

namespace Sys2Proof.Machine

/-- From `s` to `t` the machine made accesses that wrote exactly the addresses `targets`, in that order: no other byte
changed, no register did, memory kept its form, samples of the pins were used up in order, and no free value twice. -/
structure Effects (targets : List Word) (s t : State) : Prop where
  same : SameButStores s t
  draws : s.draws ≤ t.draws
  portIn : t.portIn <:+ s.portIn
  log : ∃ log, t.accesses = s.accesses ++ log ∧
    (log.filter fun a => a.kind == .write).map (fun a => a.addr) = targets
  bytes : ∀ a, a ∉ targets → byteAt t a = byteAt s a
  none : targets = [] → t.mem = s.mem ∧ t.ddr = s.ddr ∧ t.por = s.por
  wf : s.mem.wf = true → t.mem.wf = true

theorem Effects.refl (s : State) : Effects [] s s :=
  ⟨SameButStores.refl s, le_refl _, List.suffix_refl _, ⟨[], by simp, rfl⟩, fun _ _ => rfl, fun _ => ⟨rfl, rfl, rfl⟩,
    id⟩

theorem Effects.trans {l m : List Word} {s t u : State} (h : Effects l s t) (k : Effects m t u) :
    Effects (l ++ m) s u := by
  refine ⟨h.same.trans k.same, h.draws.trans k.draws, k.portIn.trans h.portIn, ?_, ?_, ?_, fun w => k.wf (h.wf w)⟩
  · obtain ⟨lg, e, f⟩ := h.log
    obtain ⟨mg, e', f'⟩ := k.log
    exact ⟨lg ++ mg, by rw [e', e, List.append_assoc], by simp [f, f']⟩
  · intro a ha
    rw [List.mem_append, not_or] at ha
    rw [k.bytes a ha.2, h.bytes a ha.1]
  · intro e
    obtain ⟨e1, e2⟩ := List.append_eq_nil_iff.mp e
    have h1 := h.none e1
    have h2 := k.none e2
    exact ⟨h2.1.trans h1.1, h2.2.1.trans h1.2.1, h2.2.2.trans h1.2.2⟩

/-- Reading before something else adds no target. -/
theorem Effects.after_reads {l : List Word} {s t u : State} (h : Effects [] s t) (k : Effects l t u) :
    Effects l s u :=
  h.trans k

/-! ### An update of a register on both sides -/

section
variable {l : List Word} {s t : State}

theorem Effects.setA (h : Effects l s t) (v : Byte) : Effects l (s.setA v) (t.setA v) :=
  ⟨by have e := h.same; unfold SameButStores at *; rw [e]; rfl, h.draws, h.portIn, h.log, h.bytes, h.none, h.wf⟩

theorem Effects.setX (h : Effects l s t) (v : Byte) : Effects l (s.setX v) (t.setX v) :=
  ⟨by have e := h.same; unfold SameButStores at *; rw [e]; rfl, h.draws, h.portIn, h.log, h.bytes, h.none, h.wf⟩

theorem Effects.setY (h : Effects l s t) (v : Byte) : Effects l (s.setY v) (t.setY v) :=
  ⟨by have e := h.same; unfold SameButStores at *; rw [e]; rfl, h.draws, h.portIn, h.log, h.bytes, h.none, h.wf⟩

theorem Effects.setSp (h : Effects l s t) (v : Byte) : Effects l (s.setSp v) (t.setSp v) :=
  ⟨by have e := h.same; unfold SameButStores at *; rw [e]; rfl, h.draws, h.portIn, h.log, h.bytes, h.none, h.wf⟩

theorem Effects.setPc (h : Effects l s t) (v : Word) : Effects l (s.setPc v) (t.setPc v) :=
  ⟨by have e := h.same; unfold SameButStores at *; rw [e]; rfl, h.draws, h.portIn, h.log, h.bytes, h.none, h.wf⟩

theorem Effects.setP (h : Effects l s t) (v : Status) : Effects l (s.setP v) (t.setP v) :=
  ⟨by have e := h.same; unfold SameButStores at *; rw [e]; rfl, h.draws, h.portIn, h.log, h.bytes, h.none, h.wf⟩

theorem Effects.setIDelayed (h : Effects l s t) (v : Option Bool) :
    Effects l (s.setIDelayed v) (t.setIDelayed v) :=
  ⟨by have e := h.same; unfold SameButStores at *; rw [e]; rfl, h.draws, h.portIn, h.log, h.bytes, h.none, h.wf⟩

theorem Effects.tick (h : Effects l s t) (n : Nat) : Effects l (s.tick n) (t.tick n) :=
  ⟨by have e := h.same; unfold SameButStores at *; rw [e]; rfl, h.draws, h.portIn, h.log, h.bytes, h.none, h.wf⟩

end

/-! ### The operations -/

theorem memRead_portIn (addr : Word) (s : State) : (memRead addr s).2.portIn <:+ s.portIn := by
  show (busRead addr s).2.portIn <:+ s.portIn
  unfold busRead
  split
  · unfold portPins
    split
    · rename_i h
      rw [h]
      exact List.suffix_cons _ _
    · exact List.suffix_refl _
  · split <;> exact List.suffix_refl _

theorem memRead_effects (addr : Word) (s : State) : Effects [] s (memRead addr s).2 := by
  have h := memRead_same addr s
  refine ⟨h.sameButStores, memRead_draws _ _, memRead_portIn _ _, ⟨_, memRead_accesses _ _, rfl⟩,
    fun a _ => h.byteAt_eq a, fun _ => ⟨h.mem_eq, h.ddr_eq, h.por_eq⟩, fun w => ?_⟩
  rw [h.mem_eq]
  exact w

theorem memWrite_effects (addr : Word) (v : Byte) (s : State) : Effects [addr] s (memWrite addr v s) := by
  have hp : (memWrite addr v s).portIn = s.portIn := by
    show (storeByte addr v s).portIn = s.portIn
    unfold storeByte
    split
    · rfl
    · split
      · rfl
      · split <;> rfl
  refine ⟨memWrite_same _ _ _, (memWrite_draws _ _ _).ge, hp ▸ List.suffix_refl _, ⟨_, memWrite_accesses _ _ _, rfl⟩,
    fun a ha => (memWrite_stored addr v s).2 a (by simpa using ha), fun h => by simp at h, memWrite_wf⟩

theorem read16_effects (addr : Word) (s : State) : Effects [] s (read16 addr s).2 :=
  (memRead_effects _ _).trans (memRead_effects _ _)

theorem read16ZP_effects (z : Byte) (s : State) : Effects [] s (read16ZP z s).2 :=
  (memRead_effects _ _).trans (memRead_effects _ _)

theorem readJumpPointer_effects (w : Word) (s : State) : Effects [] s (readJumpPointer w s).2 :=
  (memRead_effects _ _).trans (memRead_effects _ _)

theorem resolve_effects (m : AddrMode) (s : State) : Effects [] s (resolve m s).st := by
  cases m <;> first | exact Effects.refl _ | exact read16ZP_effects _ _

theorem readData_effects (d : DataOperand) (s : State) : Effects [] s (readData d s).st := by
  cases d with
  | imm m => exact Effects.refl _
  | mem m => exact (resolve_effects m s).trans (memRead_effects _ _)

theorem push_effects (v : Byte) (s : State) : Effects [stackAddr s.sp] (s.setSp (s.sp - 1)) (push v s) :=
  (memWrite_effects (stackAddr s.sp) v s).setSp (s.sp - 1)

theorem pull_effects (s : State) : Effects [] (s.setSp (s.sp + 1)) (pull s).2 :=
  memRead_effects _ _

theorem pushPc_effects (pc : Word) (s : State) :
    Effects [stackAddr s.sp, stackAddr (s.sp - 1)] (s.setSp (s.sp - 2)) (pushPc pc s) := by
  have h1 := (push_effects (highByte pc) s).setSp (s.sp - 2)
  have h2 := push_effects (lowByte pc) (push (highByte pc) s)
  rw [push_sp, show s.sp - 1 - 1 = s.sp - 2 from BitVec.sub_sub _ _ _] at h2
  exact h1.trans h2

theorem pullPc_effects (s : State) : Effects [] (s.setSp (s.sp + 2)) (pullPc s).2 := by
  have h1 := (pull_effects s).setSp (s.sp + 2)
  have h2 := pull_effects (pull s).2
  rw [pull_sp, show s.sp + 1 + 1 = s.sp + 2 from BitVec.add_assoc _ _ _] at h2
  exact h1.trans h2

/-- Taking an exception: three stack bytes, then the vector. -/
theorem takeException_effects (vector : Word) (brk setsI : Bool) (s : State) :
    Effects [stackAddr s.sp, stackAddr (s.sp - 1), stackAddr (s.sp - 2)]
      ((((s.setSp (s.sp - 3)).setP { s.p with i := s.p.i || setsI }).setPc (takeException vector brk setsI s).pc).tick 7)
      (takeException vector brk setsI s) := by
  have h1 := (pushPc_effects s.pc s).setSp (s.sp - 3)
  have h2 := push_effects (statusByte s.p brk) (pushPc s.pc s)
  have hsp : (pushPc s.pc s).sp = s.sp - 2 := (pushPc_same s.pc s).sp_eq
  rw [hsp, show s.sp - 2 - 1 = s.sp - 3 from BitVec.sub_sub _ _ _] at h2
  have h3 := (h1.trans h2).setP { s.p with i := s.p.i || setsI }
  have h4 := (h3.trans (read16_effects vector _)).setPc (takeException vector brk setsI s).pc
  exact h4.tick 7

/-- Returning from an exception: three reads of the stack, no store. -/
theorem returnFromException_effects (s : State) :
    Effects []
      ((((s.setSp (s.sp + 3)).setP (statusOfByte (pull s).1)).setPc (returnFromException s).pc).tick 6)
      (returnFromException s) := by
  have h1 := ((pull_effects s).setP (statusOfByte (pull s).1)).setSp (s.sp + 3)
  have h2 := pullPc_effects ((pull s).2.setP (statusOfByte (pull s).1))
  rw [State.setP_sp, pull_sp, show s.sp + 1 + 2 = s.sp + 3 from BitVec.add_assoc _ _ _] at h2
  exact ((h1.trans h2).setPc (returnFromException s).pc).tick 6

end Sys2Proof.Machine
end

