-- ==== Sys2Proof/Laws/Boundary.lean ====
section
/-! SUPPORT. What a boundary can do, one law per case of R271, and the effects of fetching and of the accesses an abandoned
action has performed. -/

namespace Sys2Proof.Machine

/-! ### The three branches of a boundary -/

theorem boundary_resLow (p : Params) {s : State} (h : 0 < (currentLines s).resLow) :
    boundary p s = holdReset p (currentLines s) (s.setAccesses []) := by
  simp [boundary, h]

theorem boundary_release (p : Params) {s : State} (h : (currentLines s).resLow = 0) (k : 0 < s.resCycles) :
    boundary p s = releaseReset (currentLines s) (s.setAccesses []) := by
  simp [boundary, h, k]

theorem boundary_resHigh (p : Params) {s : State} (h : ResHigh s) : boundary p s = action p (s.setAccesses []) := by
  simp [boundary, h.1, h.2]

/-! ### The cases of an action -/

section
variable (s : State)
@[simp] theorem actionStart_a : (actionStart s).a = s.a := rfl
@[simp] theorem actionStart_x : (actionStart s).x = s.x := rfl
@[simp] theorem actionStart_y : (actionStart s).y = s.y := rfl
@[simp] theorem actionStart_sp : (actionStart s).sp = s.sp := rfl
@[simp] theorem actionStart_pc : (actionStart s).pc = s.pc := rfl
@[simp] theorem actionStart_p : (actionStart s).p = s.p := rfl
@[simp] theorem actionStart_ddr : (actionStart s).ddr = s.ddr := rfl
@[simp] theorem actionStart_por : (actionStart s).por = s.por := rfl
@[simp] theorem actionStart_resCycles : (actionStart s).resCycles = s.resCycles := rfl
@[simp] theorem actionStart_mem : (actionStart s).mem = s.mem := rfl
@[simp] theorem actionStart_busMap : (actionStart s).busMap = s.busMap := rfl
@[simp] theorem actionStart_portIn : (actionStart s).portIn = s.portIn := rfl
@[simp] theorem actionStart_draws : (actionStart s).draws = s.draws := rfl
@[simp] theorem actionStart_accesses : (actionStart s).accesses = s.accesses := rfl
@[simp] theorem actionStart_nmiPending : (actionStart s).nmiPending = nmiSeen s := rfl
@[simp] theorem actionStart_nmiPrev : (actionStart s).nmiPrev = (!(currentLines s).nmiLow) := rfl
@[simp] theorem actionStart_iDelayed : (actionStart s).iDelayed = none := rfl
@[simp] theorem actionStart_afterEntry : (actionStart s).afterEntry = false := rfl
@[simp] theorem actionStart_afterReset : (actionStart s).afterReset = false := rfl
@[simp] theorem actionStart_lines : (actionStart s).lines = s.lines.tail := rfl
@[simp] theorem actionStart_cycles : (actionStart s).cycles = s.cycles + (currentLines s).rdyHeld := rfl

/-- Forgetting the accesses changes nothing that a boundary looks at. -/
@[simp] theorem currentLines_setAccesses (l : List Access) : currentLines (s.setAccesses l) = currentLines s := rfl
@[simp] theorem nmiSeen_setAccesses (l : List Access) : nmiSeen (s.setAccesses l) = nmiSeen s := rfl
@[simp] theorem examinesInterrupts_setAccesses (p : Params) (l : List Access) :
    examinesInterrupts p (s.setAccesses l) = examinesInterrupts p s := rfl
@[simp] theorem effectiveI_setAccesses (p : Params) (l : List Access) :
    effectiveI p (s.setAccesses l) = effectiveI p s := rfl
end

theorem action_busTaken (p : Params) {s : State} (ha : (currentLines s).aecTakesBus = true) :
    action p s = .refused .busTakenDuringAccess := by
  simp [action, ha]

theorem actionStart_eq (s : State) :
    (leaveBoundary (sampleNmi (currentLines s) (dropLines s))).tick (currentLines s).rdyHeld = actionStart s := by
  simp only [actionStart, nmiSeen, leaveBoundary, sampleNmi, dropLines, State.setLines, State.setNmiPending,
    State.setNmiPrev, State.setIDelayed, State.setAfterEntry, State.setAfterReset, State.tick]

/-- An action as a choice on what the boundary finds: an NMI seen, an IRQ due, or neither. -/
theorem action_eq (p : Params) {s : State} (ha : (currentLines s).aecTakesBus = false) :
    action p s =
      if examinesInterrupts p s && nmiSeen s then .next ((nmiEntry p.nmiSetsI (actionStart s)).setAfterEntry true)
      else if examinesInterrupts p s && (currentLines s).irqLow && !effectiveI p s then
        .next ((irqEntry (actionStart s)).setAfterEntry true)
      else runInstruction (actionStart s) := by
  have n : (sampleNmi (currentLines s) (dropLines s)).nmiPending = nmiSeen s := rfl
  have x : examinesInterrupts p (sampleNmi (currentLines s) (dropLines s)) = examinesInterrupts p s := rfl
  have m : effectiveI p (sampleNmi (currentLines s) (dropLines s)) = effectiveI p s := rfl
  simp only [action, ha, Bool.false_eq_true, ↓reduceIte, chooseAction, actionStart_eq, n, x, m]

theorem action_nmi {p : Params} {s : State} (h : examinesInterrupts p s = true)
    (ha : (currentLines s).aecTakesBus = false) (hn : nmiSeen s = true) :
    action p s = .next ((nmiEntry p.nmiSetsI (actionStart s)).setAfterEntry true) := by
  simp [action_eq p ha, h, hn]

theorem action_irq {p : Params} {s : State} (h : examinesInterrupts p s = true)
    (ha : (currentLines s).aecTakesBus = false) (hn : nmiSeen s = false) (hi : (currentLines s).irqLow = true)
    (hm : effectiveI p s = false) :
    action p s = .next ((irqEntry (actionStart s)).setAfterEntry true) := by
  simp [action_eq p ha, h, hn, hi, hm]

theorem action_instruction {p : Params} {s : State} (ha : (currentLines s).aecTakesBus = false)
    (h : examinesInterrupts p s = true →
      nmiSeen s = false ∧ ((currentLines s).irqLow = false ∨ effectiveI p s = true)) :
    action p s = runInstruction (actionStart s) := by
  rw [action_eq p ha]
  cases he : examinesInterrupts p s with
  | false => simp
  | true =>
    obtain ⟨hn, hi | hi⟩ := h he <;> simp [hn, hi]

/-- Every action that gives a next state is one of three: NMI entry, IRQ entry, or an instruction where neither is due. -/
theorem action_cases {p : Params} {s t : State} (h : action p s = .next t) :
    (currentLines s).aecTakesBus = false ∧
    ((examinesInterrupts p s = true ∧ nmiSeen s = true ∧
      t = (nmiEntry p.nmiSetsI (actionStart s)).setAfterEntry true) ∨
    (examinesInterrupts p s = true ∧ nmiSeen s = false ∧ (currentLines s).irqLow = true ∧ effectiveI p s = false ∧
      t = (irqEntry (actionStart s)).setAfterEntry true) ∨
    ((examinesInterrupts p s = true →
        nmiSeen s = false ∧ ((currentLines s).irqLow = false ∨ effectiveI p s = true)) ∧
      runInstruction (actionStart s) = .next t)) := by
  cases ha : (currentLines s).aecTakesBus with
  | true =>
    rw [action_busTaken p ha] at h
    cases h
  | false =>
    refine ⟨rfl, ?_⟩
    rw [action_eq p ha] at h
    split at h
    · rename_i c
      rw [Bool.and_eq_true] at c
      exact .inl ⟨c.1, c.2, by injection h.symm⟩
    · rename_i c
      split at h
      · rename_i d
        simp only [Bool.and_eq_true, Bool.not_eq_true'] at d
        refine .inr (.inl ⟨d.1.1, ?_, d.1.2, d.2, by injection h.symm⟩)
        simpa [d.1.1] using c
      · rename_i d
        refine .inr (.inr ⟨fun he => ?_, h⟩)
        simp only [he, Bool.true_and, Bool.not_eq_true, Bool.and_eq_false_iff, Bool.not_eq_false'] at c d
        exact ⟨c, d⟩

/-! ### Reset -/

/-- What the time with RES low leaves: the sample used up, the marks cleared, and the time. -/
theorem holdFor_eq (ln : Lines) (s : State) :
    holdFor ln s = { s with
      iDelayed := none, afterEntry := false, afterReset := false
      lines := s.lines.tail, resCycles := s.resCycles + ln.resLow, cycles := s.cycles + (ln.resLow + ln.rdyHeld) } := rfl

/-- The release of RES gives a next state in one way. -/
theorem releaseReset_cases {ln : Lines} {s t : State} (h : releaseReset ln s = .next t) :
    2 ≤ s.resCycles ∧ ln.aecTakesBus = false ∧ t = (resetSequence ln.nmiLow (dropLines s)).tick ln.rdyHeld := by
  unfold releaseReset at h
  split at h
  · cases h
  · rename_i c
    split at h
    · cases h
    · rename_i d
      exact ⟨by omega, by simpa using d, by injection h.symm⟩

/-- A step with RES low gives a next state in two ways: nothing was running, or an action is abandoned. -/
theorem holdReset_cases {p : Params} {ln : Lines} {s t : State} (h : holdReset p ln s = .next t) :
    (¬(s.resCycles = 0 ∧ 0 < ln.resAfter) ∧ t = holdFor ln s) ∨
    ∃ u, s.resCycles = 0 ∧ 0 < ln.resAfter ∧ action p s = .next u ∧
      t = holdFor ln (abandon s u (u.accesses.take ln.resAfter)) := by
  unfold holdReset at h
  split at h
  · rename_i c
    split at h
    · rename_i u hu
      exact .inr ⟨u, c.1, c.2, hu, by injection h.symm⟩
    · cases h
    · cases h
  · rename_i c
    exact .inl ⟨c, by injection h.symm⟩

/-! ### Fetching -/

theorem fetch8_effects (s : State) : Effects [] (s.setPc (s.pc + 1)) (fetch8 s).2 :=
  (memRead_effects s.pc s).setPc (s.pc + 1)

theorem fetchOperands_effects (m : Template) (s : State) :
    Effects [] (s.setPc (s.pc + BitVec.ofNat 16 m.operandBytes)) (fetchOperands m s).2 := by
  cases m with
  | bare i =>
    have e : s.setPc (s.pc + BitVec.ofNat 16 0) = s := by simp [State.setPc]
    show Effects [] (s.setPc (s.pc + BitVec.ofNat 16 0)) s
    rw [e]
    exact Effects.refl s
  | withByte f => exact fetch8_effects s
  | withWord f =>
    have h1 := (fetch8_effects s).setPc (s.pc + 2)
    have h2 := fetch8_effects (fetch8 s).2
    have e : (fetch8 s).2.pc + 1 = s.pc + 2 := by
      show s.pc + 1 + 1 = s.pc + 2
      rw [BitVec.add_assoc]
      rfl
    rw [e] at h2
    exact h1.trans h2

/-- Fetching an instruction reads and moves PC, and nothing else. -/
theorem fetch_effects {s : State} {f : Instr × State} (h : fetch s = .ok f) : Effects [] (s.setPc f.2.pc) f.2 := by
  simp only [fetch] at h
  split at h
  · cases h
  · rename_i m _
    injection h with h
    subst h
    have h1 := fetch8_effects s
    have h2 := fetchOperands_effects m (fetch8 s).2
    have h3 := h2.same.pc_eq
    rw [State.setPc_pc] at h3
    rw [h3]
    exact (h1.setPc _).trans h2

/-! ### An abandoned action -/

theorem replayAccess_same (s : State) (a : Access) : SameButStores s (replayAccess s a) := by
  unfold replayAccess
  split
  · exact storeByte_same _ _ _
  · exact SameButStores.refl s

theorem replay_same (l : List Access) (s : State) : SameButStores s (l.foldl replayAccess s) := by
  induction l generalizing s with
  | nil => exact SameButStores.refl s
  | cons a l ih => exact (replayAccess_same s a).trans (ih _)

theorem replayAccess_wf {s : State} (a : Access) (h : s.mem.wf = true) : (replayAccess s a).mem.wf = true := by
  unfold replayAccess
  split
  · exact storeByte_wf h
  · exact h

theorem replay_wf (l : List Access) {s : State} (h : s.mem.wf = true) : (l.foldl replayAccess s).mem.wf = true := by
  induction l generalizing s with
  | nil => exact h
  | cons a l ih => exact ih (replayAccess_wf a h)

/-- What an abandoned action leaves: the registers, hidden bits, inputs and time from before it, and the stores of the
accesses it performed. -/
theorem abandon_stores (s t : State) (l : List Access) :
    SameButStores s (abandon s t l) ∧ (abandon s t l).mem = (l.foldl replayAccess s).mem ∧
      (abandon s t l).ddr = (l.foldl replayAccess s).ddr ∧ (abandon s t l).por = (l.foldl replayAccess s).por ∧
      (abandon s t l).accesses = l ∧ (abandon s t l).draws = t.draws := by
  have h := replay_same l s
  unfold abandon
  generalize l.foldl replayAccess s = f at h ⊢
  refine ⟨?_, rfl, rfl, rfl, rfl, rfl⟩
  unfold SameButStores at h ⊢
  simp only [State.setPortIn, State.setDraws, State.setAccesses]
  rw [h]

theorem abandon_byteAt (s t : State) (l : List Access) (a : Word) :
    byteAt (abandon s t l) a = byteAt (l.foldl replayAccess s) a := by
  obtain ⟨-, h1, h2, h3, -⟩ := abandon_stores s t l
  simp only [byteAt, h1, h2, h3]

/-- Replaying accesses that write nothing to an address leaves its byte. -/
theorem replay_byteAt (l : List Access) (s : State) (a : Word)
    (h : ∀ acc ∈ l, acc.kind = .write → acc.addr ≠ a) : byteAt (l.foldl replayAccess s) a = byteAt s a := by
  induction l generalizing s with
  | nil => rfl
  | cons b l ih =>
    rw [List.foldl_cons, ih _ (fun acc hm => h acc (List.mem_cons_of_mem _ hm))]
    unfold replayAccess
    split
    · rename_i hk
      rw [storeByte_byteAt, if_neg]
      exact fun e => h b (by simp) hk e.1.symm
    · rfl

end Sys2Proof.Machine
end

