-- ==== Sys2Proof/Laws/PerInstr.lean ====
section
/-! SUPPORT. The family `OpcodeLookup`, one lemma per constructor: the opcode map and the encoder's opcode byte agree. The
host makes the statement about all instructions from these lemmas. -/

namespace Sys2Proof.Laws

open Sys2Proof.Machine (mkWord mkWord_high_low)

/-- Every operand fits its own mode. -/
theorem operand_fits (o : Operand) : o.mode.fits o.value = true := by
  have hb : ∀ b : Byte, (0 ≤ (b.toNat : Int) && (b.toNat : Int) < 256) = true := fun b => by
    have := b.isLt
    simp
    omega
  have hw : ∀ w : Word, (0 ≤ (w.toNat : Int) && (w.toNat : Int) < 65536) = true := fun w => by
    have := w.isLt
    simp
    omega
  have hr : ∀ b : Byte, (-128 ≤ b.toInt && b.toInt ≤ 127) = true := fun b => by
    have := BitVec.toInt_lt (x := b)
    have := BitVec.le_toInt (x := b)
    simp at *
    omega
  rcases o with _ | _ | b | w | m | m
  · rfl
  · rfl
  · exact hr b
  · exact hw w
  · exact hb m
  · cases m with
    | zpg z => exact hb z
    | zpgX z => exact hb z
    | zpgY z => exact hb z
    | abs w => exact hw w
    | absX w => exact hw w
    | absY w => exact hw w
    | xInd z => exact hb z
    | indY z => exact hb z

/-- What completing a template with operand bytes gives. -/
def complete : Template → List Byte → Option Instr
  | .bare i, [] => some i
  | .withByte f, [b1] => some (f b1)
  | .withWord f, [b1, b2] => some (f (mkWord b2 b1))
  | _, _ => none

/-- The instruction's mode is one its mnemonic has, and the opcode map takes its opcode byte to a template that its own
operand bytes complete to it. -/
def OpcodeLookup.Statement (i : Instr) : Prop :=
  i.mnemonic.modes.contains i.mode = true ∧
    ∃ t, decodeOpcode (opcodeOf i) = some t ∧ complete t (operandBytesOf i.operand) = some i

theorem OpcodeLookup.ldaImm (m : Byte) : OpcodeLookup.Statement (.ldaImm m) :=
  ⟨rfl, _, rfl, rfl⟩
theorem OpcodeLookup.ldaZpg (z : Byte) : OpcodeLookup.Statement (.ldaZpg z) :=
  ⟨rfl, _, rfl, rfl⟩
theorem OpcodeLookup.ldaZpgX (z : Byte) : OpcodeLookup.Statement (.ldaZpgX z) :=
  ⟨rfl, _, rfl, rfl⟩
theorem OpcodeLookup.ldaAbs (w : Word) : OpcodeLookup.Statement (.ldaAbs w) :=
  ⟨rfl, _, rfl, congrArg (fun v => some (Instr.ldaAbs v)) (mkWord_high_low w)⟩
theorem OpcodeLookup.ldaAbsX (w : Word) : OpcodeLookup.Statement (.ldaAbsX w) :=
  ⟨rfl, _, rfl, congrArg (fun v => some (Instr.ldaAbsX v)) (mkWord_high_low w)⟩
theorem OpcodeLookup.ldaAbsY (w : Word) : OpcodeLookup.Statement (.ldaAbsY w) :=
  ⟨rfl, _, rfl, congrArg (fun v => some (Instr.ldaAbsY v)) (mkWord_high_low w)⟩
theorem OpcodeLookup.ldaXInd (z : Byte) : OpcodeLookup.Statement (.ldaXInd z) :=
  ⟨rfl, _, rfl, rfl⟩
theorem OpcodeLookup.ldaIndY (z : Byte) : OpcodeLookup.Statement (.ldaIndY z) :=
  ⟨rfl, _, rfl, rfl⟩
theorem OpcodeLookup.ldxImm (m : Byte) : OpcodeLookup.Statement (.ldxImm m) :=
  ⟨rfl, _, rfl, rfl⟩
theorem OpcodeLookup.ldxZpg (z : Byte) : OpcodeLookup.Statement (.ldxZpg z) :=
  ⟨rfl, _, rfl, rfl⟩
theorem OpcodeLookup.ldxZpgY (z : Byte) : OpcodeLookup.Statement (.ldxZpgY z) :=
  ⟨rfl, _, rfl, rfl⟩
theorem OpcodeLookup.ldxAbs (w : Word) : OpcodeLookup.Statement (.ldxAbs w) :=
  ⟨rfl, _, rfl, congrArg (fun v => some (Instr.ldxAbs v)) (mkWord_high_low w)⟩
theorem OpcodeLookup.ldxAbsY (w : Word) : OpcodeLookup.Statement (.ldxAbsY w) :=
  ⟨rfl, _, rfl, congrArg (fun v => some (Instr.ldxAbsY v)) (mkWord_high_low w)⟩
theorem OpcodeLookup.ldyImm (m : Byte) : OpcodeLookup.Statement (.ldyImm m) :=
  ⟨rfl, _, rfl, rfl⟩
theorem OpcodeLookup.ldyZpg (z : Byte) : OpcodeLookup.Statement (.ldyZpg z) :=
  ⟨rfl, _, rfl, rfl⟩
theorem OpcodeLookup.ldyZpgX (z : Byte) : OpcodeLookup.Statement (.ldyZpgX z) :=
  ⟨rfl, _, rfl, rfl⟩
theorem OpcodeLookup.ldyAbs (w : Word) : OpcodeLookup.Statement (.ldyAbs w) :=
  ⟨rfl, _, rfl, congrArg (fun v => some (Instr.ldyAbs v)) (mkWord_high_low w)⟩
theorem OpcodeLookup.ldyAbsX (w : Word) : OpcodeLookup.Statement (.ldyAbsX w) :=
  ⟨rfl, _, rfl, congrArg (fun v => some (Instr.ldyAbsX v)) (mkWord_high_low w)⟩
theorem OpcodeLookup.staZpg (z : Byte) : OpcodeLookup.Statement (.staZpg z) :=
  ⟨rfl, _, rfl, rfl⟩
theorem OpcodeLookup.staZpgX (z : Byte) : OpcodeLookup.Statement (.staZpgX z) :=
  ⟨rfl, _, rfl, rfl⟩
theorem OpcodeLookup.staAbs (w : Word) : OpcodeLookup.Statement (.staAbs w) :=
  ⟨rfl, _, rfl, congrArg (fun v => some (Instr.staAbs v)) (mkWord_high_low w)⟩
theorem OpcodeLookup.staAbsX (w : Word) : OpcodeLookup.Statement (.staAbsX w) :=
  ⟨rfl, _, rfl, congrArg (fun v => some (Instr.staAbsX v)) (mkWord_high_low w)⟩
theorem OpcodeLookup.staAbsY (w : Word) : OpcodeLookup.Statement (.staAbsY w) :=
  ⟨rfl, _, rfl, congrArg (fun v => some (Instr.staAbsY v)) (mkWord_high_low w)⟩
theorem OpcodeLookup.staXInd (z : Byte) : OpcodeLookup.Statement (.staXInd z) :=
  ⟨rfl, _, rfl, rfl⟩
theorem OpcodeLookup.staIndY (z : Byte) : OpcodeLookup.Statement (.staIndY z) :=
  ⟨rfl, _, rfl, rfl⟩
theorem OpcodeLookup.stxZpg (z : Byte) : OpcodeLookup.Statement (.stxZpg z) :=
  ⟨rfl, _, rfl, rfl⟩
theorem OpcodeLookup.stxZpgY (z : Byte) : OpcodeLookup.Statement (.stxZpgY z) :=
  ⟨rfl, _, rfl, rfl⟩
theorem OpcodeLookup.stxAbs (w : Word) : OpcodeLookup.Statement (.stxAbs w) :=
  ⟨rfl, _, rfl, congrArg (fun v => some (Instr.stxAbs v)) (mkWord_high_low w)⟩
theorem OpcodeLookup.styZpg (z : Byte) : OpcodeLookup.Statement (.styZpg z) :=
  ⟨rfl, _, rfl, rfl⟩
theorem OpcodeLookup.styZpgX (z : Byte) : OpcodeLookup.Statement (.styZpgX z) :=
  ⟨rfl, _, rfl, rfl⟩
theorem OpcodeLookup.styAbs (w : Word) : OpcodeLookup.Statement (.styAbs w) :=
  ⟨rfl, _, rfl, congrArg (fun v => some (Instr.styAbs v)) (mkWord_high_low w)⟩
theorem OpcodeLookup.tax : OpcodeLookup.Statement .tax :=
  ⟨rfl, _, rfl, rfl⟩
theorem OpcodeLookup.tay : OpcodeLookup.Statement .tay :=
  ⟨rfl, _, rfl, rfl⟩
theorem OpcodeLookup.txa : OpcodeLookup.Statement .txa :=
  ⟨rfl, _, rfl, rfl⟩
theorem OpcodeLookup.tya : OpcodeLookup.Statement .tya :=
  ⟨rfl, _, rfl, rfl⟩
theorem OpcodeLookup.tsx : OpcodeLookup.Statement .tsx :=
  ⟨rfl, _, rfl, rfl⟩
theorem OpcodeLookup.txs : OpcodeLookup.Statement .txs :=
  ⟨rfl, _, rfl, rfl⟩
theorem OpcodeLookup.pha : OpcodeLookup.Statement .pha :=
  ⟨rfl, _, rfl, rfl⟩
theorem OpcodeLookup.php : OpcodeLookup.Statement .php :=
  ⟨rfl, _, rfl, rfl⟩
theorem OpcodeLookup.pla : OpcodeLookup.Statement .pla :=
  ⟨rfl, _, rfl, rfl⟩
theorem OpcodeLookup.plp : OpcodeLookup.Statement .plp :=
  ⟨rfl, _, rfl, rfl⟩
theorem OpcodeLookup.adcImm (m : Byte) : OpcodeLookup.Statement (.adcImm m) :=
  ⟨rfl, _, rfl, rfl⟩
theorem OpcodeLookup.adcZpg (z : Byte) : OpcodeLookup.Statement (.adcZpg z) :=
  ⟨rfl, _, rfl, rfl⟩
theorem OpcodeLookup.adcZpgX (z : Byte) : OpcodeLookup.Statement (.adcZpgX z) :=
  ⟨rfl, _, rfl, rfl⟩
theorem OpcodeLookup.adcAbs (w : Word) : OpcodeLookup.Statement (.adcAbs w) :=
  ⟨rfl, _, rfl, congrArg (fun v => some (Instr.adcAbs v)) (mkWord_high_low w)⟩
theorem OpcodeLookup.adcAbsX (w : Word) : OpcodeLookup.Statement (.adcAbsX w) :=
  ⟨rfl, _, rfl, congrArg (fun v => some (Instr.adcAbsX v)) (mkWord_high_low w)⟩
theorem OpcodeLookup.adcAbsY (w : Word) : OpcodeLookup.Statement (.adcAbsY w) :=
  ⟨rfl, _, rfl, congrArg (fun v => some (Instr.adcAbsY v)) (mkWord_high_low w)⟩
theorem OpcodeLookup.adcXInd (z : Byte) : OpcodeLookup.Statement (.adcXInd z) :=
  ⟨rfl, _, rfl, rfl⟩
theorem OpcodeLookup.adcIndY (z : Byte) : OpcodeLookup.Statement (.adcIndY z) :=
  ⟨rfl, _, rfl, rfl⟩
theorem OpcodeLookup.sbcImm (m : Byte) : OpcodeLookup.Statement (.sbcImm m) :=
  ⟨rfl, _, rfl, rfl⟩
theorem OpcodeLookup.sbcZpg (z : Byte) : OpcodeLookup.Statement (.sbcZpg z) :=
  ⟨rfl, _, rfl, rfl⟩
theorem OpcodeLookup.sbcZpgX (z : Byte) : OpcodeLookup.Statement (.sbcZpgX z) :=
  ⟨rfl, _, rfl, rfl⟩
theorem OpcodeLookup.sbcAbs (w : Word) : OpcodeLookup.Statement (.sbcAbs w) :=
  ⟨rfl, _, rfl, congrArg (fun v => some (Instr.sbcAbs v)) (mkWord_high_low w)⟩
theorem OpcodeLookup.sbcAbsX (w : Word) : OpcodeLookup.Statement (.sbcAbsX w) :=
  ⟨rfl, _, rfl, congrArg (fun v => some (Instr.sbcAbsX v)) (mkWord_high_low w)⟩
theorem OpcodeLookup.sbcAbsY (w : Word) : OpcodeLookup.Statement (.sbcAbsY w) :=
  ⟨rfl, _, rfl, congrArg (fun v => some (Instr.sbcAbsY v)) (mkWord_high_low w)⟩
theorem OpcodeLookup.sbcXInd (z : Byte) : OpcodeLookup.Statement (.sbcXInd z) :=
  ⟨rfl, _, rfl, rfl⟩
theorem OpcodeLookup.sbcIndY (z : Byte) : OpcodeLookup.Statement (.sbcIndY z) :=
  ⟨rfl, _, rfl, rfl⟩
theorem OpcodeLookup.incZpg (z : Byte) : OpcodeLookup.Statement (.incZpg z) :=
  ⟨rfl, _, rfl, rfl⟩
theorem OpcodeLookup.incZpgX (z : Byte) : OpcodeLookup.Statement (.incZpgX z) :=
  ⟨rfl, _, rfl, rfl⟩
theorem OpcodeLookup.incAbs (w : Word) : OpcodeLookup.Statement (.incAbs w) :=
  ⟨rfl, _, rfl, congrArg (fun v => some (Instr.incAbs v)) (mkWord_high_low w)⟩
theorem OpcodeLookup.incAbsX (w : Word) : OpcodeLookup.Statement (.incAbsX w) :=
  ⟨rfl, _, rfl, congrArg (fun v => some (Instr.incAbsX v)) (mkWord_high_low w)⟩
theorem OpcodeLookup.decZpg (z : Byte) : OpcodeLookup.Statement (.decZpg z) :=
  ⟨rfl, _, rfl, rfl⟩
theorem OpcodeLookup.decZpgX (z : Byte) : OpcodeLookup.Statement (.decZpgX z) :=
  ⟨rfl, _, rfl, rfl⟩
theorem OpcodeLookup.decAbs (w : Word) : OpcodeLookup.Statement (.decAbs w) :=
  ⟨rfl, _, rfl, congrArg (fun v => some (Instr.decAbs v)) (mkWord_high_low w)⟩
theorem OpcodeLookup.decAbsX (w : Word) : OpcodeLookup.Statement (.decAbsX w) :=
  ⟨rfl, _, rfl, congrArg (fun v => some (Instr.decAbsX v)) (mkWord_high_low w)⟩
theorem OpcodeLookup.inx : OpcodeLookup.Statement .inx :=
  ⟨rfl, _, rfl, rfl⟩
theorem OpcodeLookup.iny : OpcodeLookup.Statement .iny :=
  ⟨rfl, _, rfl, rfl⟩
theorem OpcodeLookup.dex : OpcodeLookup.Statement .dex :=
  ⟨rfl, _, rfl, rfl⟩
theorem OpcodeLookup.dey : OpcodeLookup.Statement .dey :=
  ⟨rfl, _, rfl, rfl⟩
theorem OpcodeLookup.andImm (m : Byte) : OpcodeLookup.Statement (.andImm m) :=
  ⟨rfl, _, rfl, rfl⟩
theorem OpcodeLookup.andZpg (z : Byte) : OpcodeLookup.Statement (.andZpg z) :=
  ⟨rfl, _, rfl, rfl⟩
theorem OpcodeLookup.andZpgX (z : Byte) : OpcodeLookup.Statement (.andZpgX z) :=
  ⟨rfl, _, rfl, rfl⟩
theorem OpcodeLookup.andAbs (w : Word) : OpcodeLookup.Statement (.andAbs w) :=
  ⟨rfl, _, rfl, congrArg (fun v => some (Instr.andAbs v)) (mkWord_high_low w)⟩
theorem OpcodeLookup.andAbsX (w : Word) : OpcodeLookup.Statement (.andAbsX w) :=
  ⟨rfl, _, rfl, congrArg (fun v => some (Instr.andAbsX v)) (mkWord_high_low w)⟩
theorem OpcodeLookup.andAbsY (w : Word) : OpcodeLookup.Statement (.andAbsY w) :=
  ⟨rfl, _, rfl, congrArg (fun v => some (Instr.andAbsY v)) (mkWord_high_low w)⟩
theorem OpcodeLookup.andXInd (z : Byte) : OpcodeLookup.Statement (.andXInd z) :=
  ⟨rfl, _, rfl, rfl⟩
theorem OpcodeLookup.andIndY (z : Byte) : OpcodeLookup.Statement (.andIndY z) :=
  ⟨rfl, _, rfl, rfl⟩
theorem OpcodeLookup.oraImm (m : Byte) : OpcodeLookup.Statement (.oraImm m) :=
  ⟨rfl, _, rfl, rfl⟩
theorem OpcodeLookup.oraZpg (z : Byte) : OpcodeLookup.Statement (.oraZpg z) :=
  ⟨rfl, _, rfl, rfl⟩
theorem OpcodeLookup.oraZpgX (z : Byte) : OpcodeLookup.Statement (.oraZpgX z) :=
  ⟨rfl, _, rfl, rfl⟩
theorem OpcodeLookup.oraAbs (w : Word) : OpcodeLookup.Statement (.oraAbs w) :=
  ⟨rfl, _, rfl, congrArg (fun v => some (Instr.oraAbs v)) (mkWord_high_low w)⟩
theorem OpcodeLookup.oraAbsX (w : Word) : OpcodeLookup.Statement (.oraAbsX w) :=
  ⟨rfl, _, rfl, congrArg (fun v => some (Instr.oraAbsX v)) (mkWord_high_low w)⟩
theorem OpcodeLookup.oraAbsY (w : Word) : OpcodeLookup.Statement (.oraAbsY w) :=
  ⟨rfl, _, rfl, congrArg (fun v => some (Instr.oraAbsY v)) (mkWord_high_low w)⟩
theorem OpcodeLookup.oraXInd (z : Byte) : OpcodeLookup.Statement (.oraXInd z) :=
  ⟨rfl, _, rfl, rfl⟩
theorem OpcodeLookup.oraIndY (z : Byte) : OpcodeLookup.Statement (.oraIndY z) :=
  ⟨rfl, _, rfl, rfl⟩
theorem OpcodeLookup.eorImm (m : Byte) : OpcodeLookup.Statement (.eorImm m) :=
  ⟨rfl, _, rfl, rfl⟩
theorem OpcodeLookup.eorZpg (z : Byte) : OpcodeLookup.Statement (.eorZpg z) :=
  ⟨rfl, _, rfl, rfl⟩
theorem OpcodeLookup.eorZpgX (z : Byte) : OpcodeLookup.Statement (.eorZpgX z) :=
  ⟨rfl, _, rfl, rfl⟩
theorem OpcodeLookup.eorAbs (w : Word) : OpcodeLookup.Statement (.eorAbs w) :=
  ⟨rfl, _, rfl, congrArg (fun v => some (Instr.eorAbs v)) (mkWord_high_low w)⟩
theorem OpcodeLookup.eorAbsX (w : Word) : OpcodeLookup.Statement (.eorAbsX w) :=
  ⟨rfl, _, rfl, congrArg (fun v => some (Instr.eorAbsX v)) (mkWord_high_low w)⟩
theorem OpcodeLookup.eorAbsY (w : Word) : OpcodeLookup.Statement (.eorAbsY w) :=
  ⟨rfl, _, rfl, congrArg (fun v => some (Instr.eorAbsY v)) (mkWord_high_low w)⟩
theorem OpcodeLookup.eorXInd (z : Byte) : OpcodeLookup.Statement (.eorXInd z) :=
  ⟨rfl, _, rfl, rfl⟩
theorem OpcodeLookup.eorIndY (z : Byte) : OpcodeLookup.Statement (.eorIndY z) :=
  ⟨rfl, _, rfl, rfl⟩
theorem OpcodeLookup.bitZpg (z : Byte) : OpcodeLookup.Statement (.bitZpg z) :=
  ⟨rfl, _, rfl, rfl⟩
theorem OpcodeLookup.bitAbs (w : Word) : OpcodeLookup.Statement (.bitAbs w) :=
  ⟨rfl, _, rfl, congrArg (fun v => some (Instr.bitAbs v)) (mkWord_high_low w)⟩
theorem OpcodeLookup.aslA : OpcodeLookup.Statement .aslA :=
  ⟨rfl, _, rfl, rfl⟩
theorem OpcodeLookup.aslZpg (z : Byte) : OpcodeLookup.Statement (.aslZpg z) :=
  ⟨rfl, _, rfl, rfl⟩
theorem OpcodeLookup.aslZpgX (z : Byte) : OpcodeLookup.Statement (.aslZpgX z) :=
  ⟨rfl, _, rfl, rfl⟩
theorem OpcodeLookup.aslAbs (w : Word) : OpcodeLookup.Statement (.aslAbs w) :=
  ⟨rfl, _, rfl, congrArg (fun v => some (Instr.aslAbs v)) (mkWord_high_low w)⟩
theorem OpcodeLookup.aslAbsX (w : Word) : OpcodeLookup.Statement (.aslAbsX w) :=
  ⟨rfl, _, rfl, congrArg (fun v => some (Instr.aslAbsX v)) (mkWord_high_low w)⟩
theorem OpcodeLookup.lsrA : OpcodeLookup.Statement .lsrA :=
  ⟨rfl, _, rfl, rfl⟩
theorem OpcodeLookup.lsrZpg (z : Byte) : OpcodeLookup.Statement (.lsrZpg z) :=
  ⟨rfl, _, rfl, rfl⟩
theorem OpcodeLookup.lsrZpgX (z : Byte) : OpcodeLookup.Statement (.lsrZpgX z) :=
  ⟨rfl, _, rfl, rfl⟩
theorem OpcodeLookup.lsrAbs (w : Word) : OpcodeLookup.Statement (.lsrAbs w) :=
  ⟨rfl, _, rfl, congrArg (fun v => some (Instr.lsrAbs v)) (mkWord_high_low w)⟩
theorem OpcodeLookup.lsrAbsX (w : Word) : OpcodeLookup.Statement (.lsrAbsX w) :=
  ⟨rfl, _, rfl, congrArg (fun v => some (Instr.lsrAbsX v)) (mkWord_high_low w)⟩
theorem OpcodeLookup.rolA : OpcodeLookup.Statement .rolA :=
  ⟨rfl, _, rfl, rfl⟩
theorem OpcodeLookup.rolZpg (z : Byte) : OpcodeLookup.Statement (.rolZpg z) :=
  ⟨rfl, _, rfl, rfl⟩
theorem OpcodeLookup.rolZpgX (z : Byte) : OpcodeLookup.Statement (.rolZpgX z) :=
  ⟨rfl, _, rfl, rfl⟩
theorem OpcodeLookup.rolAbs (w : Word) : OpcodeLookup.Statement (.rolAbs w) :=
  ⟨rfl, _, rfl, congrArg (fun v => some (Instr.rolAbs v)) (mkWord_high_low w)⟩
theorem OpcodeLookup.rolAbsX (w : Word) : OpcodeLookup.Statement (.rolAbsX w) :=
  ⟨rfl, _, rfl, congrArg (fun v => some (Instr.rolAbsX v)) (mkWord_high_low w)⟩
theorem OpcodeLookup.rorA : OpcodeLookup.Statement .rorA :=
  ⟨rfl, _, rfl, rfl⟩
theorem OpcodeLookup.rorZpg (z : Byte) : OpcodeLookup.Statement (.rorZpg z) :=
  ⟨rfl, _, rfl, rfl⟩
theorem OpcodeLookup.rorZpgX (z : Byte) : OpcodeLookup.Statement (.rorZpgX z) :=
  ⟨rfl, _, rfl, rfl⟩
theorem OpcodeLookup.rorAbs (w : Word) : OpcodeLookup.Statement (.rorAbs w) :=
  ⟨rfl, _, rfl, congrArg (fun v => some (Instr.rorAbs v)) (mkWord_high_low w)⟩
theorem OpcodeLookup.rorAbsX (w : Word) : OpcodeLookup.Statement (.rorAbsX w) :=
  ⟨rfl, _, rfl, congrArg (fun v => some (Instr.rorAbsX v)) (mkWord_high_low w)⟩
theorem OpcodeLookup.cmpImm (m : Byte) : OpcodeLookup.Statement (.cmpImm m) :=
  ⟨rfl, _, rfl, rfl⟩
theorem OpcodeLookup.cmpZpg (z : Byte) : OpcodeLookup.Statement (.cmpZpg z) :=
  ⟨rfl, _, rfl, rfl⟩
theorem OpcodeLookup.cmpZpgX (z : Byte) : OpcodeLookup.Statement (.cmpZpgX z) :=
  ⟨rfl, _, rfl, rfl⟩
theorem OpcodeLookup.cmpAbs (w : Word) : OpcodeLookup.Statement (.cmpAbs w) :=
  ⟨rfl, _, rfl, congrArg (fun v => some (Instr.cmpAbs v)) (mkWord_high_low w)⟩
theorem OpcodeLookup.cmpAbsX (w : Word) : OpcodeLookup.Statement (.cmpAbsX w) :=
  ⟨rfl, _, rfl, congrArg (fun v => some (Instr.cmpAbsX v)) (mkWord_high_low w)⟩
theorem OpcodeLookup.cmpAbsY (w : Word) : OpcodeLookup.Statement (.cmpAbsY w) :=
  ⟨rfl, _, rfl, congrArg (fun v => some (Instr.cmpAbsY v)) (mkWord_high_low w)⟩
theorem OpcodeLookup.cmpXInd (z : Byte) : OpcodeLookup.Statement (.cmpXInd z) :=
  ⟨rfl, _, rfl, rfl⟩
theorem OpcodeLookup.cmpIndY (z : Byte) : OpcodeLookup.Statement (.cmpIndY z) :=
  ⟨rfl, _, rfl, rfl⟩
theorem OpcodeLookup.cpxImm (m : Byte) : OpcodeLookup.Statement (.cpxImm m) :=
  ⟨rfl, _, rfl, rfl⟩
theorem OpcodeLookup.cpxZpg (z : Byte) : OpcodeLookup.Statement (.cpxZpg z) :=
  ⟨rfl, _, rfl, rfl⟩
theorem OpcodeLookup.cpxAbs (w : Word) : OpcodeLookup.Statement (.cpxAbs w) :=
  ⟨rfl, _, rfl, congrArg (fun v => some (Instr.cpxAbs v)) (mkWord_high_low w)⟩
theorem OpcodeLookup.cpyImm (m : Byte) : OpcodeLookup.Statement (.cpyImm m) :=
  ⟨rfl, _, rfl, rfl⟩
theorem OpcodeLookup.cpyZpg (z : Byte) : OpcodeLookup.Statement (.cpyZpg z) :=
  ⟨rfl, _, rfl, rfl⟩
theorem OpcodeLookup.cpyAbs (w : Word) : OpcodeLookup.Statement (.cpyAbs w) :=
  ⟨rfl, _, rfl, congrArg (fun v => some (Instr.cpyAbs v)) (mkWord_high_low w)⟩
theorem OpcodeLookup.bcc (b : Byte) : OpcodeLookup.Statement (.bcc b) :=
  ⟨rfl, _, rfl, rfl⟩
theorem OpcodeLookup.bcs (b : Byte) : OpcodeLookup.Statement (.bcs b) :=
  ⟨rfl, _, rfl, rfl⟩
theorem OpcodeLookup.beq (b : Byte) : OpcodeLookup.Statement (.beq b) :=
  ⟨rfl, _, rfl, rfl⟩
theorem OpcodeLookup.bne (b : Byte) : OpcodeLookup.Statement (.bne b) :=
  ⟨rfl, _, rfl, rfl⟩
theorem OpcodeLookup.bmi (b : Byte) : OpcodeLookup.Statement (.bmi b) :=
  ⟨rfl, _, rfl, rfl⟩
theorem OpcodeLookup.bpl (b : Byte) : OpcodeLookup.Statement (.bpl b) :=
  ⟨rfl, _, rfl, rfl⟩
theorem OpcodeLookup.bvc (b : Byte) : OpcodeLookup.Statement (.bvc b) :=
  ⟨rfl, _, rfl, rfl⟩
theorem OpcodeLookup.bvs (b : Byte) : OpcodeLookup.Statement (.bvs b) :=
  ⟨rfl, _, rfl, rfl⟩
theorem OpcodeLookup.jmpAbs (w : Word) : OpcodeLookup.Statement (.jmpAbs w) :=
  ⟨rfl, _, rfl, congrArg (fun v => some (Instr.jmpAbs v)) (mkWord_high_low w)⟩
theorem OpcodeLookup.jmpInd (w : Word) : OpcodeLookup.Statement (.jmpInd w) :=
  ⟨rfl, _, rfl, congrArg (fun v => some (Instr.jmpInd v)) (mkWord_high_low w)⟩
theorem OpcodeLookup.jsr (w : Word) : OpcodeLookup.Statement (.jsr w) :=
  ⟨rfl, _, rfl, congrArg (fun v => some (Instr.jsr v)) (mkWord_high_low w)⟩
theorem OpcodeLookup.rts : OpcodeLookup.Statement .rts :=
  ⟨rfl, _, rfl, rfl⟩
theorem OpcodeLookup.clc : OpcodeLookup.Statement .clc :=
  ⟨rfl, _, rfl, rfl⟩
theorem OpcodeLookup.sec : OpcodeLookup.Statement .sec :=
  ⟨rfl, _, rfl, rfl⟩
theorem OpcodeLookup.cli : OpcodeLookup.Statement .cli :=
  ⟨rfl, _, rfl, rfl⟩
theorem OpcodeLookup.sei : OpcodeLookup.Statement .sei :=
  ⟨rfl, _, rfl, rfl⟩
theorem OpcodeLookup.cld : OpcodeLookup.Statement .cld :=
  ⟨rfl, _, rfl, rfl⟩
theorem OpcodeLookup.sed : OpcodeLookup.Statement .sed :=
  ⟨rfl, _, rfl, rfl⟩
theorem OpcodeLookup.clv : OpcodeLookup.Statement .clv :=
  ⟨rfl, _, rfl, rfl⟩
theorem OpcodeLookup.brk : OpcodeLookup.Statement .brk :=
  ⟨rfl, _, rfl, rfl⟩
theorem OpcodeLookup.nop : OpcodeLookup.Statement .nop :=
  ⟨rfl, _, rfl, rfl⟩
theorem OpcodeLookup.rti : OpcodeLookup.Statement .rti :=
  ⟨rfl, _, rfl, rfl⟩

end Sys2Proof.Laws
end

