-- ==== Sys2Proof/Tests/Slice0.lean ====
section
/-! SUPPORT. Tests: the well-formedness checks, a word of every opcode, one step of every mnemonic on the spec's vectors,
the interrupt and reset scenarios, and a witness for the hypotheses of each obligation that has some. -/

namespace Sys2Proof.Tests

open Sys2Proof.Machine

/-! ### Helpers -/

/-- Bytes put into memory from an address on. -/
def load : Word → List Byte → Memory → Memory
  | _, [], m => m
  | a, b :: rest, m => load (a + 1) rest (m.write a.toNat b)

/-- Single bytes put into memory. -/
def pokes (l : List (Word × Byte)) (m : Memory) : Memory :=
  l.foldl (fun acc c => acc.write c.1.toNat c.2) m

/-- The start state of the vectors (95_test_vectors.md, Conventions): flags clear, pins high, code at PC, some bytes
elsewhere. -/
def start (pc : Word) (code : List Byte) (bytes : List (Word × Byte)) : State :=
  { State.reset with
    pc := pc
    p := ⟨false, false, false, false, false, false⟩
    afterReset := false
    portIn := [0x3F, 0x3F]
    mem := pokes bytes (load pc code []) }

/-- The parameters of the vectors: NMI leaves I, no mask latency, an entry ends at a boundary. -/
def plain : Params := ⟨false, false, true⟩

/-- The step of a state gives a next state with a property. -/
def after (p : Params) (s : State) (f : State → Bool) : Bool :=
  match boundary p s with
  | .next t => f t
  | .fault _ => false
  | .refused _ => false

/-- The step of a state is refused for a reason. -/
def refusedWith (p : Params) (s : State) (r : Refusal) : Bool :=
  match boundary p s with
  | .refused q => decide (q = r)
  | .next _ => false
  | .fault _ => false

/-- The accesses of a step after the `n` that fetched the instruction. -/
def dataOf (n : Nat) (t : State) : List Access :=
  t.accesses.drop n

/-- Bytes that decode to exactly one instruction. -/
def decodesTo (bytes : List Byte) (i : Instr) : Bool :=
  match decode bytes with
  | .ok (j, []) => decide (j = i)
  | .ok (_, _ :: _) => false
  | .error _ => false

/-! ### Well-formedness: each check of an assembler refuses an ill-formed source form (R118, R104, R114) -/

theorem test_refuses_mode_a_mnemonic_lacks :
    ([⟨.ldx, .absoluteX, 0x1234⟩, ⟨.sta, .immediate, 5⟩, ⟨.stx, .absoluteY, 5⟩, ⟨.jmp, .indirectX, 5⟩, ⟨.bit, .immediate, 5⟩,
      ⟨.inc, .accumulator, 0⟩, ⟨.tax, .accumulator, 0⟩, ⟨.jsr, .absoluteIndirect, 5⟩] : List SourceForm).all
      (fun f => !f.wellFormed) = true := by decide

theorem test_refuses_operand_too_big :
    ([⟨.lda, .immediate, 256⟩, ⟨.lda, .zeroPage, 256⟩, ⟨.ldx, .zeroPageY, 300⟩, ⟨.lda, .indirectY, 256⟩,
      ⟨.lda, .absolute, 65536⟩, ⟨.jmp, .absoluteIndirect, 65536⟩, ⟨.lda, .immediate, -1⟩, ⟨.lda, .absoluteX, -1⟩]
      : List SourceForm).all (fun f => !f.wellFormed) = true := by decide

theorem test_refuses_branch_out_of_range :
    ([⟨.bne, .relative, 200⟩, ⟨.bne, .relative, 128⟩, ⟨.bne, .relative, -129⟩] : List SourceForm).all
      (fun f => !f.wellFormed) = true := by decide

theorem test_refuses_operand_where_none_fits :
    ([⟨.tax, .implied, 1⟩, ⟨.asl, .accumulator, 1⟩] : List SourceForm).all (fun f => !f.wellFormed) = true := by decide

theorem test_accepts_the_ends_of_each_range :
    ([⟨.bne, .relative, 127⟩, ⟨.bne, .relative, -128⟩, ⟨.lda, .zeroPage, 255⟩, ⟨.lda, .absolute, 65535⟩, ⟨.tax, .implied, 0⟩,
      ⟨.lda, .immediate, 0⟩] : List SourceForm).all (fun f => f.wellFormed) = true := by decide

/-! ### Decoding: every opcode byte with the operand bytes of the spec's example (96_test_vectors_opcodes_interrupts.md
section 1.1; a branch with offset byte $FD) -/

theorem test_decode_loads_and_stores :
    ([([0xA1, 0x44], .ldaXInd 0x44), ([0xA5, 0x44], .ldaZpg 0x44), ([0xA9, 0x44], .ldaImm 0x44),
      ([0xAD, 0x00, 0x44], .ldaAbs 0x4400), ([0xB1, 0x44], .ldaIndY 0x44), ([0xB5, 0x44], .ldaZpgX 0x44),
      ([0xB9, 0x00, 0x44], .ldaAbsY 0x4400), ([0xBD, 0x00, 0x44], .ldaAbsX 0x4400), ([0xA2, 0x44], .ldxImm 0x44),
      ([0xA6, 0x44], .ldxZpg 0x44), ([0xAE, 0x00, 0x44], .ldxAbs 0x4400), ([0xB6, 0x44], .ldxZpgY 0x44),
      ([0xBE, 0x00, 0x44], .ldxAbsY 0x4400), ([0xA0, 0x44], .ldyImm 0x44), ([0xA4, 0x44], .ldyZpg 0x44),
      ([0xAC, 0x00, 0x44], .ldyAbs 0x4400), ([0xB4, 0x44], .ldyZpgX 0x44), ([0xBC, 0x00, 0x44], .ldyAbsX 0x4400),
      ([0x81, 0x44], .staXInd 0x44), ([0x85, 0x44], .staZpg 0x44), ([0x8D, 0x00, 0x44], .staAbs 0x4400),
      ([0x91, 0x44], .staIndY 0x44), ([0x95, 0x44], .staZpgX 0x44), ([0x99, 0x00, 0x44], .staAbsY 0x4400),
      ([0x9D, 0x00, 0x44], .staAbsX 0x4400), ([0x86, 0x44], .stxZpg 0x44), ([0x8E, 0x00, 0x44], .stxAbs 0x4400),
      ([0x96, 0x44], .stxZpgY 0x44), ([0x84, 0x44], .styZpg 0x44), ([0x8C, 0x00, 0x44], .styAbs 0x4400),
      ([0x94, 0x44], .styZpgX 0x44)]
      : List (List Byte × Instr)).all (fun c => decodesTo c.1 c.2) = true := by decide

theorem test_decode_transfers_and_stack :
    ([([0xAA], .tax), ([0xA8], .tay), ([0x8A], .txa), ([0x98], .tya), ([0xBA], .tsx), ([0x9A], .txs),
      ([0x48], .pha), ([0x08], .php), ([0x68], .pla), ([0x28], .plp)]
      : List (List Byte × Instr)).all (fun c => decodesTo c.1 c.2) = true := by decide

theorem test_decode_arithmetic :
    ([([0x61, 0x44], .adcXInd 0x44), ([0x65, 0x44], .adcZpg 0x44), ([0x69, 0x44], .adcImm 0x44),
      ([0x6D, 0x00, 0x44], .adcAbs 0x4400), ([0x71, 0x44], .adcIndY 0x44), ([0x75, 0x44], .adcZpgX 0x44),
      ([0x79, 0x00, 0x44], .adcAbsY 0x4400), ([0x7D, 0x00, 0x44], .adcAbsX 0x4400), ([0xE1, 0x44], .sbcXInd 0x44),
      ([0xE5, 0x44], .sbcZpg 0x44), ([0xE9, 0x44], .sbcImm 0x44), ([0xED, 0x00, 0x44], .sbcAbs 0x4400),
      ([0xF1, 0x44], .sbcIndY 0x44), ([0xF5, 0x44], .sbcZpgX 0x44), ([0xF9, 0x00, 0x44], .sbcAbsY 0x4400),
      ([0xFD, 0x00, 0x44], .sbcAbsX 0x4400), ([0xE6, 0x44], .incZpg 0x44), ([0xEE, 0x00, 0x44], .incAbs 0x4400),
      ([0xF6, 0x44], .incZpgX 0x44), ([0xFE, 0x00, 0x44], .incAbsX 0x4400), ([0xC6, 0x44], .decZpg 0x44),
      ([0xCE, 0x00, 0x44], .decAbs 0x4400), ([0xD6, 0x44], .decZpgX 0x44), ([0xDE, 0x00, 0x44], .decAbsX 0x4400),
      ([0xE8], .inx), ([0xC8], .iny), ([0xCA], .dex), ([0x88], .dey)]
      : List (List Byte × Instr)).all (fun c => decodesTo c.1 c.2) = true := by decide

theorem test_decode_logic :
    ([([0x21, 0x44], .andXInd 0x44), ([0x25, 0x44], .andZpg 0x44), ([0x29, 0x44], .andImm 0x44),
      ([0x2D, 0x00, 0x44], .andAbs 0x4400), ([0x31, 0x44], .andIndY 0x44), ([0x35, 0x44], .andZpgX 0x44),
      ([0x39, 0x00, 0x44], .andAbsY 0x4400), ([0x3D, 0x00, 0x44], .andAbsX 0x4400), ([0x01, 0x44], .oraXInd 0x44),
      ([0x05, 0x44], .oraZpg 0x44), ([0x09, 0x44], .oraImm 0x44), ([0x0D, 0x00, 0x44], .oraAbs 0x4400),
      ([0x11, 0x44], .oraIndY 0x44), ([0x15, 0x44], .oraZpgX 0x44), ([0x19, 0x00, 0x44], .oraAbsY 0x4400),
      ([0x1D, 0x00, 0x44], .oraAbsX 0x4400), ([0x41, 0x44], .eorXInd 0x44), ([0x45, 0x44], .eorZpg 0x44),
      ([0x49, 0x44], .eorImm 0x44), ([0x4D, 0x00, 0x44], .eorAbs 0x4400), ([0x51, 0x44], .eorIndY 0x44),
      ([0x55, 0x44], .eorZpgX 0x44), ([0x59, 0x00, 0x44], .eorAbsY 0x4400), ([0x5D, 0x00, 0x44], .eorAbsX 0x4400),
      ([0x24, 0x44], .bitZpg 0x44), ([0x2C, 0x00, 0x44], .bitAbs 0x4400)]
      : List (List Byte × Instr)).all (fun c => decodesTo c.1 c.2) = true := by decide

theorem test_decode_shifts :
    ([([0x06, 0x44], .aslZpg 0x44), ([0x0A], .aslA), ([0x0E, 0x00, 0x44], .aslAbs 0x4400),
      ([0x16, 0x44], .aslZpgX 0x44), ([0x1E, 0x00, 0x44], .aslAbsX 0x4400), ([0x46, 0x44], .lsrZpg 0x44),
      ([0x4A], .lsrA), ([0x4E, 0x00, 0x44], .lsrAbs 0x4400), ([0x56, 0x44], .lsrZpgX 0x44),
      ([0x5E, 0x00, 0x44], .lsrAbsX 0x4400), ([0x26, 0x44], .rolZpg 0x44), ([0x2A], .rolA),
      ([0x2E, 0x00, 0x44], .rolAbs 0x4400), ([0x36, 0x44], .rolZpgX 0x44), ([0x3E, 0x00, 0x44], .rolAbsX 0x4400),
      ([0x66, 0x44], .rorZpg 0x44), ([0x6A], .rorA), ([0x6E, 0x00, 0x44], .rorAbs 0x4400),
      ([0x76, 0x44], .rorZpgX 0x44), ([0x7E, 0x00, 0x44], .rorAbsX 0x4400)]
      : List (List Byte × Instr)).all (fun c => decodesTo c.1 c.2) = true := by decide

theorem test_decode_compares_and_branches :
    ([([0xC1, 0x44], .cmpXInd 0x44), ([0xC5, 0x44], .cmpZpg 0x44), ([0xC9, 0x44], .cmpImm 0x44),
      ([0xCD, 0x00, 0x44], .cmpAbs 0x4400), ([0xD1, 0x44], .cmpIndY 0x44), ([0xD5, 0x44], .cmpZpgX 0x44),
      ([0xD9, 0x00, 0x44], .cmpAbsY 0x4400), ([0xDD, 0x00, 0x44], .cmpAbsX 0x4400), ([0xE0, 0x44], .cpxImm 0x44),
      ([0xE4, 0x44], .cpxZpg 0x44), ([0xEC, 0x00, 0x44], .cpxAbs 0x4400), ([0xC0, 0x44], .cpyImm 0x44),
      ([0xC4, 0x44], .cpyZpg 0x44), ([0xCC, 0x00, 0x44], .cpyAbs 0x4400), ([0x90, 0xFD], .bcc 0xFD),
      ([0xB0, 0xFD], .bcs 0xFD), ([0xF0, 0xFD], .beq 0xFD), ([0xD0, 0xFD], .bne 0xFD), ([0x30, 0xFD], .bmi 0xFD),
      ([0x10, 0xFD], .bpl 0xFD), ([0x50, 0xFD], .bvc 0xFD), ([0x70, 0xFD], .bvs 0xFD)]
      : List (List Byte × Instr)).all (fun c => decodesTo c.1 c.2) = true := by decide

theorem test_decode_jumps_flags_and_system :
    ([([0x4C, 0x00, 0x44], .jmpAbs 0x4400), ([0x6C, 0x00, 0x44], .jmpInd 0x4400),
      ([0x20, 0x00, 0x44], .jsr 0x4400), ([0x60], .rts), ([0x18], .clc), ([0x38], .sec), ([0x58], .cli),
      ([0x78], .sei), ([0xD8], .cld), ([0xF8], .sed), ([0xB8], .clv), ([0x00], .brk), ([0xEA], .nop), ([0x40], .rti)]
      : List (List Byte × Instr)).all (fun c => decodesTo c.1 c.2) = true := by decide

theorem test_decode_refuses :
    (decode [0x02] matches .error (.undocumented 0x02)) ∧ (decode [0xAD, 0x00] matches .error .truncated) ∧
      (decode [] matches .error .truncated) := by decide

/-- The table's numbering: the opcode is bits 7..0, the low operand byte bits 15..8, the high one bits 23..16. -/
theorem test_decodeTableWord :
    decodeTableWord 24 0x1234AD = some (.ldaAbs 0x1234) ∧ decodeTableWord 16 0x1234A5 = some (.ldaZpg 0x34) ∧
      decodeTableWord 8 0x1234AA = some .tax ∧ decodeTableWord 8 0xAD = some (.ldaAbs 0) ∧
      decodeTableWord 8 0x02 = none := by decide

theorem test_withFetchWord_runs_the_word :
    after plain (State.reset.withFetchWord 16 0x80A9) (fun t => t.a == 0x80 && t.p.n && t.pc == 0x1002) = true := by
  decide

/-! ### One step, on the vectors of 95_test_vectors.md section 2: the end column and the data accesses of each -/

/-- V-LS-01: `LDA #$42`. -/
theorem test_lda_V_LS_01 :
    after plain
      { start 0x1000 [0xA9, 0x42] [] with p := ⟨true, false, false, false, true, false⟩ }
      (fun t => t.a == 0x42 && t.pc == 0x1002 && t.p == ⟨false, false, false, false, false, false⟩ &&
        dataOf 2 t == [] && t.cycles == 2) = true := by decide

/-- V-LS-06: `LDA $80,X`. -/
theorem test_lda_V_LS_06 :
    after plain
      { start 0x1000 [0xB5, 0x80] [(0x0010, 0x66), (0x0110, 0xEE)] with x := 0x90 }
      (fun t => t.a == 0x66 && t.pc == 0x1002 && t.p == ⟨false, false, false, false, false, false⟩ &&
        dataOf 2 t == [⟨.read, 0x0010, 0x66⟩] && t.cycles == 4) = true := by decide

/-- V-LS-07: `LDX $40,Y`. -/
theorem test_ldx_V_LS_07 :
    after plain
      { start 0x1000 [0xB6, 0x40] [(0x0050, 0x81)] with y := 0x10 }
      (fun t => t.x == 0x81 && t.pc == 0x1002 && t.p == ⟨true, false, false, false, false, false⟩ &&
        dataOf 2 t == [⟨.read, 0x0050, 0x81⟩] && t.cycles == 4) = true := by decide

/-- V-LS-08: `LDA $C000`. -/
theorem test_lda_V_LS_08 :
    after plain
      (start 0x1000 [0xAD, 0x00, 0xC0] [(0xC000, 0x01)])
      (fun t => t.a == 0x01 && t.pc == 0x1003 && t.p == ⟨false, false, false, false, false, false⟩ &&
        dataOf 3 t == [⟨.read, 0xC000, 0x01⟩] && t.cycles == 4) = true := by decide

/-- V-LS-09: `LDA $C0F0,X`. -/
theorem test_lda_V_LS_09 :
    after plain
      { start 0x1000 [0xBD, 0xF0, 0xC0] [(0xC100, 0x44)] with x := 0x10 }
      (fun t => t.a == 0x44 && t.pc == 0x1003 && t.p == ⟨false, false, false, false, false, false⟩ &&
        dataOf 3 t == [⟨.read, 0xC100, 0x44⟩] && t.cycles == 5) = true := by decide

/-- V-LS-11: `LDA $FFF0,Y`. -/
theorem test_lda_V_LS_11 :
    after plain
      { start 0x1000 [0xB9, 0xF0, 0xFF] [(0x0010, 0x3C)] with y := 0x20 }
      (fun t => t.a == 0x3C && t.pc == 0x1003 && t.p == ⟨false, false, false, false, false, false⟩ &&
        dataOf 3 t == [⟨.read, 0x0010, 0x3C⟩] && t.cycles == 5) = true := by decide

/-- V-LS-13: `LDA ($F0,X)`. -/
theorem test_lda_V_LS_13 :
    after plain
      { start 0x1000 [0xA1, 0xF0] [(0x0010, 0x34), (0x0011, 0x12), (0x1234, 0x07)] with x := 0x20 }
      (fun t => t.a == 0x07 && t.pc == 0x1002 && t.p == ⟨false, false, false, false, false, false⟩ &&
        dataOf 2 t == [⟨.read, 0x0010, 0x34⟩, ⟨.read, 0x0011, 0x12⟩, ⟨.read, 0x1234, 0x07⟩] &&
        t.cycles == 6) = true := by decide

/-- V-LS-15: `LDA ($40),Y`. -/
theorem test_lda_V_LS_15 :
    after plain
      { start 0x1000 [0xB1, 0x40] [(0x0040, 0xFF), (0x0041, 0xC0), (0xC100, 0x22)] with y := 0x01 }
      (fun t => t.a == 0x22 && t.pc == 0x1002 && t.p == ⟨false, false, false, false, false, false⟩ &&
        dataOf 2 t == [⟨.read, 0x0040, 0xFF⟩, ⟨.read, 0x0041, 0xC0⟩, ⟨.read, 0xC100, 0x22⟩] &&
        t.cycles == 6) = true := by decide

/-- V-LS-16: `LDA ($FF),Y`. -/
theorem test_lda_V_LS_16 :
    after plain
      { start 0x1000 [0xB1, 0xFF] [(0x00FF, 0x10), (0x2F12, 0x6B), (0x0112, 0xEE)] with y := 0x02, ddr := 0x2F }
      (fun t => t.a == 0x6B && t.pc == 0x1002 && t.p == ⟨false, false, false, false, false, false⟩ &&
        dataOf 2 t == [⟨.read, 0x00FF, 0x10⟩, ⟨.read, 0x0000, 0x2F⟩, ⟨.read, 0x2F12, 0x6B⟩] &&
        t.cycles == 5) = true := by decide

/-- V-LS-17: `LDA ($EF,X)`. -/
theorem test_lda_V_LS_17 :
    after plain
      { start 0x1000 [0xA1, 0xEF] [(0x00FF, 0x10), (0x2F10, 0x6C)] with x := 0x10, ddr := 0x2F }
      (fun t => t.a == 0x6C && t.pc == 0x1002 && t.p == ⟨false, false, false, false, false, false⟩ &&
        dataOf 2 t == [⟨.read, 0x00FF, 0x10⟩, ⟨.read, 0x0000, 0x2F⟩, ⟨.read, 0x2F10, 0x6C⟩] &&
        t.cycles == 6) = true := by decide

/-- V-LS-18: `LDY $44,X`. -/
theorem test_ldy_V_LS_18 :
    after plain
      { start 0x1000 [0xB4, 0x44] [(0x0043, 0x80)] with x := 0xFF }
      (fun t => t.y == 0x80 && t.pc == 0x1002 && t.p == ⟨true, false, false, false, false, false⟩ &&
        dataOf 2 t == [⟨.read, 0x0043, 0x80⟩] && t.cycles == 4) = true := by decide

/-- V-LS-21: `STA $0400,Y`. -/
theorem test_sta_V_LS_21 :
    after plain
      { start 0x1000 [0x99, 0x00, 0x04] [] with a := 0x20, y := 0x28 }
      (fun t => t.pc == 0x1003 && t.p == ⟨false, false, false, false, false, false⟩ &&
        dataOf 3 t == [⟨.write, 0x0428, 0x20⟩] && t.cycles == 5) = true := by decide

/-- V-LS-22: `STA $0400`. -/
theorem test_sta_V_LS_22 :
    after plain
      { start 0x1000 [0x8D, 0x00, 0x04] [] with a := 0x00, p := ⟨true, false, false, false, false, false⟩ }
      (fun t => t.pc == 0x1003 && t.p == ⟨true, false, false, false, false, false⟩ &&
        dataOf 3 t == [⟨.write, 0x0400, 0x00⟩] && t.cycles == 4) = true := by decide

/-- V-LS-23: `STA $FB`. -/
theorem test_sta_V_LS_23 :
    after plain
      { start 0x1000 [0x85, 0xFB] [] with a := 0xAB }
      (fun t => t.pc == 0x1002 && t.p == ⟨false, false, false, false, false, false⟩ &&
        dataOf 2 t == [⟨.write, 0x00FB, 0xAB⟩] && t.cycles == 3) = true := by decide

/-- V-LS-24: `STA $F0,X`. -/
theorem test_sta_V_LS_24 :
    after plain
      { start 0x1000 [0x95, 0xF0] [] with a := 0x12, x := 0x20 }
      (fun t => t.pc == 0x1002 && t.p == ⟨false, false, false, false, false, false⟩ &&
        dataOf 2 t == [⟨.write, 0x0010, 0x12⟩] && t.cycles == 4) = true := by decide

/-- V-LS-25: `STA $44F0,X`. -/
theorem test_sta_V_LS_25 :
    after plain
      { start 0x1000 [0x9D, 0xF0, 0x44] [] with a := 0x13, x := 0x20 }
      (fun t => t.pc == 0x1003 && t.p == ⟨false, false, false, false, false, false⟩ &&
        dataOf 3 t == [⟨.write, 0x4510, 0x13⟩] && t.cycles == 5) = true := by decide

/-- V-LS-26: `STA ($40,X)`. -/
theorem test_sta_V_LS_26 :
    after plain
      { start 0x1000 [0x81, 0x40] [(0x0042, 0x00), (0x0043, 0x30)] with a := 0x14, x := 0x02 }
      (fun t => t.pc == 0x1002 && t.p == ⟨false, false, false, false, false, false⟩ &&
        dataOf 2 t == [⟨.read, 0x0042, 0x00⟩, ⟨.read, 0x0043, 0x30⟩, ⟨.write, 0x3000, 0x14⟩] &&
        t.cycles == 6) = true := by decide

/-- V-LS-27: `STA ($FB),Y`. -/
theorem test_sta_V_LS_27 :
    after plain
      { start 0x1000 [0x91, 0xFB] [(0x00FB, 0x00), (0x00FC, 0x04)] with a := 0x20, y := 0x27 }
      (fun t => t.pc == 0x1002 && t.p == ⟨false, false, false, false, false, false⟩ &&
        dataOf 2 t == [⟨.read, 0x00FB, 0x00⟩, ⟨.read, 0x00FC, 0x04⟩, ⟨.write, 0x0427, 0x20⟩] &&
        t.cycles == 6) = true := by decide

/-- V-LS-29: `STX $10,Y`. -/
theorem test_stx_V_LS_29 :
    after plain
      { start 0x1000 [0x96, 0x10] [] with x := 0x99, y := 0xF8 }
      (fun t => t.pc == 0x1002 && t.p == ⟨false, false, false, false, false, false⟩ &&
        dataOf 2 t == [⟨.write, 0x0008, 0x99⟩] && t.cycles == 4) = true := by decide

/-- V-LS-31: `STY $10,X`. -/
theorem test_sty_V_LS_31 :
    after plain
      { start 0x1000 [0x94, 0x10] [] with x := 0x01, y := 0x97 }
      (fun t => t.pc == 0x1002 && t.p == ⟨false, false, false, false, false, false⟩ &&
        dataOf 2 t == [⟨.write, 0x0011, 0x97⟩] && t.cycles == 4) = true := by decide

/-- V-LS-33: `LDA $00`. -/
theorem test_lda_V_LS_33 :
    after plain
      { start 0x1000 [0xA5, 0x00] [] with ddr := 0x2F }
      (fun t => t.a == 0x2F && t.pc == 0x1002 && t.p == ⟨false, false, false, false, false, false⟩ &&
        dataOf 2 t == [⟨.read, 0x0000, 0x2F⟩] && t.cycles == 3) = true := by decide

/-- V-LS-35: `LDA $01`. -/
theorem test_lda_V_LS_35 :
    after plain
      { start 0x1000 [0xA5, 0x01] [] with ddr := 0x2F, por := 0x37, portIn := [0x2F] }
      (fun t => t.a == 0xE7 && t.pc == 0x1002 && t.p == ⟨true, false, false, false, false, false⟩ &&
        dataOf 2 t == [⟨.read, 0x0001, 0xE7⟩] && t.cycles == 3) = true := by decide

/-- V-TS-01: `TAX`. -/
theorem test_tax_V_TS_01 :
    after plain
      { start 0x1000 [0xAA] [] with a := 0x80 }
      (fun t => t.x == 0x80 && t.pc == 0x1001 && t.p == ⟨true, false, false, false, false, false⟩ &&
        dataOf 1 t == [] && t.cycles == 2) = true := by decide

/-- V-TS-02: `TAY`. -/
theorem test_tay_V_TS_02 :
    after plain
      { start 0x1000 [0xA8] [] with a := 0x00, y := 0x55, p := ⟨true, false, false, false, false, false⟩ }
      (fun t => t.y == 0x00 && t.pc == 0x1001 && t.p == ⟨false, false, false, false, true, false⟩ &&
        dataOf 1 t == [] && t.cycles == 2) = true := by decide

/-- V-TS-03: `TXA`. -/
theorem test_txa_V_TS_03 :
    after plain
      { start 0x1000 [0x8A] [] with a := 0xFF, x := 0x7F, p := ⟨true, false, false, false, false, false⟩ }
      (fun t => t.a == 0x7F && t.pc == 0x1001 && t.p == ⟨false, false, false, false, false, false⟩ &&
        dataOf 1 t == [] && t.cycles == 2) = true := by decide

/-- V-TS-04: `TYA`. -/
theorem test_tya_V_TS_04 :
    after plain
      { start 0x1000 [0x98] [] with y := 0xC0 }
      (fun t => t.a == 0xC0 && t.pc == 0x1001 && t.p == ⟨true, false, false, false, false, false⟩ &&
        dataOf 1 t == [] && t.cycles == 2) = true := by decide

/-- V-TS-05: `TSX`. -/
theorem test_tsx_V_TS_05 :
    after plain
      { start 0x1000 [0xBA] [] with sp := 0xFD }
      (fun t => t.x == 0xFD && t.pc == 0x1001 && t.p == ⟨true, false, false, false, false, false⟩ &&
        dataOf 1 t == [] && t.cycles == 2) = true := by decide

/-- V-TS-07: `TXS`. -/
theorem test_txs_V_TS_07 :
    after plain
      { start 0x1000 [0x9A] [] with x := 0x00, p := ⟨true, false, false, false, false, false⟩ }
      (fun t => t.sp == 0x00 && t.pc == 0x1001 && t.p == ⟨true, false, false, false, false, false⟩ &&
        dataOf 1 t == [] && t.cycles == 2) = true := by decide

/-- V-TS-09: `PHA`. -/
theorem test_pha_V_TS_09 :
    after plain
      { start 0x1000 [0x48] [] with a := 0x42 }
      (fun t => t.sp == 0xFE && t.pc == 0x1001 && t.p == ⟨false, false, false, false, false, false⟩ &&
        dataOf 1 t == [⟨.write, 0x01FF, 0x42⟩] && t.cycles == 3) = true := by decide

/-- V-TS-10: `PHA`. -/
theorem test_pha_V_TS_10 :
    after plain
      { start 0x1000 [0x48] [] with a := 0x00, sp := 0x00, p := ⟨true, false, false, false, false, false⟩ }
      (fun t => t.sp == 0xFF && t.pc == 0x1001 && t.p == ⟨true, false, false, false, false, false⟩ &&
        dataOf 1 t == [⟨.write, 0x0100, 0x00⟩] && t.cycles == 3) = true := by decide

/-- V-TS-11: `PHP`. -/
theorem test_php_V_TS_11 :
    after plain
      { start 0x1000 [0x08] [] with p := ⟨false, false, false, true, true, true⟩ }
      (fun t => t.sp == 0xFE && t.pc == 0x1001 && t.p == ⟨false, false, false, true, true, true⟩ &&
        dataOf 1 t == [⟨.write, 0x01FF, 0x37⟩] && t.cycles == 3) = true := by decide

/-- V-TS-14: `PLA`. -/
theorem test_pla_V_TS_14 :
    after plain
      { start 0x1000 [0x68] [(0x01FF, 0x80)] with sp := 0xFE }
      (fun t => t.a == 0x80 && t.sp == 0xFF && t.pc == 0x1001 && t.p == ⟨true, false, false, false, false, false⟩ &&
        dataOf 1 t == [⟨.read, 0x01FF, 0x80⟩] && t.cycles == 4) = true := by decide

/-- V-TS-16: `PLP`. -/
theorem test_plp_V_TS_16 :
    after plain
      { start 0x1000 [0x28] [(0x01FF, 0xC3)] with sp := 0xFE }
      (fun t => t.sp == 0xFF && t.pc == 0x1001 && t.p == ⟨true, true, false, false, true, true⟩ &&
        dataOf 1 t == [⟨.read, 0x01FF, 0xC3⟩] && t.cycles == 4) = true := by decide

/-- V-TS-19: `PLP`. -/
theorem test_plp_V_TS_19 :
    after plain
      { start 0x1000 [0x28] [(0x01FF, 0x30)] with sp := 0xFE, p := ⟨false, false, false, false, false, true⟩ }
      (fun t => t.sp == 0xFF && t.pc == 0x1001 && t.p == ⟨false, false, false, false, false, false⟩ &&
        dataOf 1 t == [⟨.read, 0x01FF, 0x30⟩] && t.cycles == 4) = true := by decide

/-- V-AR-02: `ADC #$01`. -/
theorem test_adc_V_AR_02 :
    after plain
      { start 0x1000 [0x69, 0x01] [] with a := 0x7F }
      (fun t => t.a == 0x80 && t.pc == 0x1002 && t.p == ⟨true, true, false, false, false, false⟩ &&
        dataOf 2 t == [] && t.cycles == 2) = true := by decide

/-- V-AR-10: `SBC #$01`. -/
theorem test_sbc_V_AR_10 :
    after plain
      { start 0x1000 [0xE9, 0x01] [] with a := 0x00, p := ⟨false, false, false, false, false, true⟩ }
      (fun t => t.a == 0xFF && t.pc == 0x1002 && t.p == ⟨true, false, false, false, false, false⟩ &&
        dataOf 2 t == [] && t.cycles == 2) = true := by decide

/-- V-AR-17: `ADC #$50`. -/
theorem test_adc_V_AR_17 :
    after plain
      { start 0x1000 [0x69, 0x50] [] with a := 0x75, p := ⟨false, false, true, false, false, false⟩ }
      (fun t => t.a == 0x25 && t.p.c == true && t.cycles == 2) = true := by decide

/-- V-AR-18: `SBC #$01`. -/
theorem test_sbc_V_AR_18 :
    after plain
      { start 0x1000 [0xE9, 0x01] [] with a := 0x20, p := ⟨false, false, true, false, false, true⟩ }
      (fun t => t.a == 0x19 && t.p.c == true && t.cycles == 2) = true := by decide

/-- V-AR-20: `INC $20`. -/
theorem test_inc_V_AR_20 :
    after plain
      { start 0x1000 [0xE6, 0x20] [(0x0020, 0xFF)] with p := ⟨true, false, false, false, false, true⟩ }
      (fun t => t.pc == 0x1002 && t.p == ⟨false, false, false, false, true, true⟩ &&
        dataOf 2 t == [⟨.read, 0x0020, 0xFF⟩, ⟨.write, 0x0020, 0x00⟩] && t.cycles == 5) = true := by decide

/-- V-AR-24: `DEC $80`. -/
theorem test_dec_V_AR_24 :
    after plain
      (start 0x1000 [0xC6, 0x80] [(0x0080, 0x00)])
      (fun t => t.pc == 0x1002 && t.p == ⟨true, false, false, false, false, false⟩ &&
        dataOf 2 t == [⟨.read, 0x0080, 0x00⟩, ⟨.write, 0x0080, 0xFF⟩] && t.cycles == 5) = true := by decide

/-- V-AR-28: `INX`. -/
theorem test_inx_V_AR_28 :
    after plain
      { start 0x1000 [0xE8] [] with x := 0xFF }
      (fun t => t.x == 0x00 && t.pc == 0x1001 && t.p == ⟨false, false, false, false, true, false⟩ &&
        dataOf 1 t == [] && t.cycles == 2) = true := by decide

/-- V-AR-30: `INY`. -/
theorem test_iny_V_AR_30 :
    after plain
      { start 0x1000 [0xC8] [] with y := 0xFF, p := ⟨false, false, false, false, false, true⟩ }
      (fun t => t.y == 0x00 && t.pc == 0x1001 && t.p == ⟨false, false, false, false, true, true⟩ &&
        dataOf 1 t == [] && t.cycles == 2) = true := by decide

/-- V-AR-32: `DEX`. -/
theorem test_dex_V_AR_32 :
    after plain
      { start 0x1000 [0xCA] [] with x := 0x00 }
      (fun t => t.x == 0xFF && t.pc == 0x1001 && t.p == ⟨true, false, false, false, false, false⟩ &&
        dataOf 1 t == [] && t.cycles == 2) = true := by decide

/-- V-AR-34: `DEY`. -/
theorem test_dey_V_AR_34 :
    after plain
      { start 0x1000 [0x88] [] with y := 0x80 }
      (fun t => t.y == 0x7F && t.pc == 0x1001 && t.p == ⟨false, false, false, false, false, false⟩ &&
        dataOf 1 t == [] && t.cycles == 2) = true := by decide

/-- V-LG-01: `AND #$FE`. -/
theorem test_and_V_LG_01 :
    after plain
      { start 0x1000 [0x29, 0xFE] [] with a := 0x37 }
      (fun t => t.a == 0x36 && t.pc == 0x1002 && t.p == ⟨false, false, false, false, false, false⟩ &&
        dataOf 2 t == [] && t.cycles == 2) = true := by decide

/-- V-LG-04: `ORA #$01`. -/
theorem test_ora_V_LG_04 :
    after plain
      { start 0x1000 [0x09, 0x01] [] with a := 0x80 }
      (fun t => t.a == 0x81 && t.pc == 0x1002 && t.p == ⟨true, false, false, false, false, false⟩ &&
        dataOf 2 t == [] && t.cycles == 2) = true := by decide

/-- V-LG-07: `EOR #$FF`. -/
theorem test_eor_V_LG_07 :
    after plain
      { start 0x1000 [0x49, 0xFF] [] with a := 0xFF }
      (fun t => t.a == 0x00 && t.pc == 0x1002 && t.p == ⟨false, false, false, false, true, false⟩ &&
        dataOf 2 t == [] && t.cycles == 2) = true := by decide

/-- V-LG-10: `BIT $44`. -/
theorem test_bit_V_LG_10 :
    after plain
      { start 0x1000 [0x24, 0x44] [(0x0044, 0xC0)] with a := 0x01 }
      (fun t => t.pc == 0x1002 && t.p == ⟨true, true, false, false, true, false⟩ &&
        dataOf 2 t == [⟨.read, 0x0044, 0xC0⟩] && t.cycles == 3) = true := by decide

/-- V-LG-14: `ASL A`. -/
theorem test_asl_V_LG_14 :
    after plain
      { start 0x1000 [0x0A] [] with a := 0x81 }
      (fun t => t.a == 0x02 && t.pc == 0x1001 && t.p == ⟨false, false, false, false, false, true⟩ &&
        dataOf 1 t == [] && t.cycles == 2) = true := by decide

/-- V-LG-19: `LSR A`. -/
theorem test_lsr_V_LG_19 :
    after plain
      { start 0x1000 [0x4A] [] with a := 0x01 }
      (fun t => t.a == 0x00 && t.pc == 0x1001 && t.p == ⟨false, false, false, false, true, true⟩ &&
        dataOf 1 t == [] && t.cycles == 2) = true := by decide

/-- V-LG-23: `ROL A`. -/
theorem test_rol_V_LG_23 :
    after plain
      { start 0x1000 [0x2A] [] with a := 0x80, p := ⟨false, false, false, false, false, false⟩ }
      (fun t => t.a == 0x00 && t.pc == 0x1001 && t.p == ⟨false, false, false, false, true, true⟩ &&
        dataOf 1 t == [] && t.cycles == 2) = true := by decide

/-- V-LG-27: `ROR A`. -/
theorem test_ror_V_LG_27 :
    after plain
      { start 0x1000 [0x6A] [] with a := 0x01, p := ⟨false, false, false, false, false, false⟩ }
      (fun t => t.a == 0x00 && t.pc == 0x1001 && t.p == ⟨false, false, false, false, true, true⟩ &&
        dataOf 1 t == [] && t.cycles == 2) = true := by decide

/-- V-CB-01: `CMP #$42`. -/
theorem test_cmp_V_CB_01 :
    after plain
      { start 0x1000 [0xC9, 0x42] [] with a := 0x42, p := ⟨true, false, false, false, false, false⟩ }
      (fun t => t.pc == 0x1002 && t.p == ⟨false, false, false, false, true, true⟩ && dataOf 2 t == [] &&
        t.cycles == 2) = true := by decide

/-- V-CB-07: `CPX #$10`. -/
theorem test_cpx_V_CB_07 :
    after plain
      { start 0x1000 [0xE0, 0x10] [] with x := 0x10 }
      (fun t => t.pc == 0x1002 && t.p == ⟨false, false, false, false, true, true⟩ && dataOf 2 t == [] &&
        t.cycles == 2) = true := by decide

/-- V-CB-08b: `CPY #$28`. -/
theorem test_cpy_V_CB_08b :
    after plain
      { start 0x1000 [0xC0, 0x28] [] with y := 0x28 }
      (fun t => t.pc == 0x1002 && t.p == ⟨false, false, false, false, true, true⟩ && dataOf 2 t == [] &&
        t.cycles == 2) = true := by decide

/-- V-CB-09: `BCC $1007`. -/
theorem test_bcc_V_CB_09 :
    after plain
      { start 0x1000 [0x90, 0x05] [] with p := ⟨false, false, false, false, false, false⟩ }
      (fun t => t.pc == 0x1007 && t.p == ⟨false, false, false, false, false, false⟩ && dataOf 2 t == [] &&
        t.cycles == 3) = true := by decide

/-- V-CB-10: `BCC $1007`. -/
theorem test_bcc_V_CB_10 :
    after plain
      { start 0x1000 [0x90, 0x05] [] with p := ⟨false, false, false, false, false, true⟩ }
      (fun t => t.pc == 0x1002 && t.p == ⟨false, false, false, false, false, true⟩ && dataOf 2 t == [] &&
        t.cycles == 2) = true := by decide

/-- V-CB-11: `BCS $0FFD`. -/
theorem test_bcs_V_CB_11 :
    after plain
      { start 0x1000 [0xB0, 0xFB] [] with p := ⟨false, false, false, false, false, true⟩ }
      (fun t => t.pc == 0x0FFD && t.p == ⟨false, false, false, false, false, true⟩ && dataOf 2 t == [] &&
        t.cycles == 4) = true := by decide

/-- V-CB-12: `BNE $100C`. -/
theorem test_bne_V_CB_12 :
    after plain
      { start 0x1000 [0xD0, 0x0A] [] with p := ⟨false, false, false, false, false, false⟩ }
      (fun t => t.pc == 0x100C && t.p == ⟨false, false, false, false, false, false⟩ && dataOf 2 t == [] &&
        t.cycles == 3) = true := by decide

/-- V-CB-13: `BEQ $1002`. -/
theorem test_beq_V_CB_13 :
    after plain
      { start 0x1000 [0xF0, 0x00] [] with p := ⟨false, false, false, false, true, false⟩ }
      (fun t => t.pc == 0x1002 && t.p == ⟨false, false, false, false, true, false⟩ && dataOf 2 t == [] &&
        t.cycles == 3) = true := by decide

/-- V-CB-14: `BNE $1000`. -/
theorem test_bne_V_CB_14 :
    after plain
      { start 0x1000 [0xD0, 0xFE] [] with p := ⟨false, false, false, false, false, false⟩ }
      (fun t => t.pc == 0x1000 && t.p == ⟨false, false, false, false, false, false⟩ && dataOf 2 t == [] &&
        t.cycles == 3) = true := by decide

/-- V-CB-15: `BPL $0F82`. -/
theorem test_bpl_V_CB_15 :
    after plain
      { start 0x1000 [0x10, 0x80] [] with p := ⟨false, false, false, false, false, false⟩ }
      (fun t => t.pc == 0x0F82 && t.p == ⟨false, false, false, false, false, false⟩ && dataOf 2 t == [] &&
        t.cycles == 4) = true := by decide

/-- V-CB-16: `BMI $1081`. -/
theorem test_bmi_V_CB_16 :
    after plain
      { start 0x1000 [0x30, 0x7F] [] with p := ⟨true, false, false, false, false, false⟩ }
      (fun t => t.pc == 0x1081 && t.p == ⟨true, false, false, false, false, false⟩ && dataOf 2 t == [] &&
        t.cycles == 3) = true := by decide

/-- V-CB-17: `BVC $10FC`. -/
theorem test_bvc_V_CB_17 :
    after plain
      { start 0x10F0 [0x50, 0x0A] [] with p := ⟨false, false, false, false, false, false⟩ }
      (fun t => t.pc == 0x10FC && t.p == ⟨false, false, false, false, false, false⟩ && dataOf 2 t == [] &&
        t.cycles == 3) = true := by decide

/-- V-CB-18: `BVS $1100`. -/
theorem test_bvs_V_CB_18 :
    after plain
      { start 0x10F0 [0x70, 0x0E] [] with p := ⟨false, true, false, false, false, false⟩ }
      (fun t => t.pc == 0x1100 && t.p == ⟨false, true, false, false, false, false⟩ && dataOf 2 t == [] &&
        t.cycles == 4) = true := by decide

/-- V-JS-01: `JMP $FFCE`. -/
theorem test_jmp_V_JS_01 :
    after plain
      (start 0x1000 [0x4C, 0xCE, 0xFF] [])
      (fun t => t.pc == 0xFFCE && t.p == ⟨false, false, false, false, false, false⟩ && dataOf 3 t == [] &&
        t.cycles == 3) = true := by decide

/-- V-JS-02: `JMP ($0314)`. -/
theorem test_jmp_V_JS_02 :
    after plain
      (start 0x1000 [0x6C, 0x14, 0x03] [(0x0314, 0x81), (0x0315, 0xEA)])
      (fun t => t.pc == 0xEA81 && t.p == ⟨false, false, false, false, false, false⟩ &&
        dataOf 3 t == [⟨.read, 0x0314, 0x81⟩, ⟨.read, 0x0315, 0xEA⟩] && t.cycles == 5) = true := by decide

/-- V-JS-03: `JMP ($C0FF)`. -/
theorem test_jmp_V_JS_03 :
    after plain
      (start 0x1000 [0x6C, 0xFF, 0xC0] [(0xC0FF, 0x34), (0xC100, 0x12), (0xC000, 0x56)])
      (fun t => t.pc == 0x5634 && t.p == ⟨false, false, false, false, false, false⟩ &&
        dataOf 3 t == [⟨.read, 0xC0FF, 0x34⟩, ⟨.read, 0xC000, 0x56⟩] && t.cycles == 5) = true := by decide

/-- V-JS-04: `JSR $FFD2`. -/
theorem test_jsr_V_JS_04 :
    after plain
      (start 0xC000 [0x20, 0xD2, 0xFF] [])
      (fun t => t.sp == 0xFD && t.pc == 0xFFD2 && t.p == ⟨false, false, false, false, false, false⟩ &&
        dataOf 3 t == [⟨.write, 0x01FF, 0xC0⟩, ⟨.write, 0x01FE, 0x02⟩] && t.cycles == 6) = true := by decide

/-- V-JS-05: `RTS`. -/
theorem test_rts_V_JS_05 :
    after plain
      { start 0xFFD2 [0x60] [(0x01FE, 0x02), (0x01FF, 0xC0)] with sp := 0xFD }
      (fun t => t.sp == 0xFF && t.pc == 0xC003 && t.p == ⟨false, false, false, false, false, false⟩ &&
        dataOf 1 t == [⟨.read, 0x01FE, 0x02⟩, ⟨.read, 0x01FF, 0xC0⟩] && t.cycles == 6) = true := by decide

/-- V-JS-06: `JSR $2000`. -/
theorem test_jsr_V_JS_06 :
    after plain
      { start 0x1000 [0x20, 0x00, 0x20] [] with sp := 0x00 }
      (fun t => t.sp == 0xFE && t.pc == 0x2000 && t.p == ⟨false, false, false, false, false, false⟩ &&
        dataOf 3 t == [⟨.write, 0x0100, 0x10⟩, ⟨.write, 0x01FF, 0x02⟩] && t.cycles == 6) = true := by decide

/-- V-JS-07: `RTS`. -/
theorem test_rts_V_JS_07 :
    after plain
      { start 0x1000 [0x60] [(0x0100, 0xFF), (0x0101, 0x1F)] with sp := 0xFF }
      (fun t => t.sp == 0x01 && t.pc == 0x2000 && t.p == ⟨false, false, false, false, false, false⟩ &&
        dataOf 1 t == [⟨.read, 0x0100, 0xFF⟩, ⟨.read, 0x0101, 0x1F⟩] && t.cycles == 6) = true := by decide

/-- V-FS-01: `CLC`. -/
theorem test_clc_V_FS_01 :
    after plain
      { start 0x1000 [0x18] [] with p := ⟨false, false, false, false, false, true⟩ }
      (fun t => t.pc == 0x1001 && t.p == ⟨false, false, false, false, false, false⟩ && dataOf 1 t == [] &&
        t.cycles == 2) = true := by decide

/-- V-FS-02: `SEC`. -/
theorem test_sec_V_FS_02 :
    after plain
      (start 0x1000 [0x38] [])
      (fun t => t.pc == 0x1001 && t.p == ⟨false, false, false, false, false, true⟩ && dataOf 1 t == [] &&
        t.cycles == 2) = true := by decide

/-- V-FS-03: `CLI`. -/
theorem test_cli_V_FS_03 :
    after plain
      { start 0x1000 [0x58] [] with p := ⟨false, false, false, true, false, false⟩ }
      (fun t => t.pc == 0x1001 && t.p == ⟨false, false, false, false, false, false⟩ && dataOf 1 t == [] &&
        t.cycles == 2) = true := by decide

/-- V-FS-04: `SEI`. -/
theorem test_sei_V_FS_04 :
    after plain
      (start 0x1000 [0x78] [])
      (fun t => t.pc == 0x1001 && t.p == ⟨false, false, false, true, false, false⟩ && dataOf 1 t == [] &&
        t.cycles == 2) = true := by decide

/-- V-FS-05: `CLD`. -/
theorem test_cld_V_FS_05 :
    after plain
      { start 0x1000 [0xD8] [] with p := ⟨false, false, true, false, false, false⟩ }
      (fun t => t.pc == 0x1001 && t.p == ⟨false, false, false, false, false, false⟩ && dataOf 1 t == [] &&
        t.cycles == 2) = true := by decide

/-- V-FS-06: `SED`. -/
theorem test_sed_V_FS_06 :
    after plain
      (start 0x1000 [0xF8] [])
      (fun t => t.pc == 0x1001 && t.p == ⟨false, false, true, false, false, false⟩ && dataOf 1 t == [] &&
        t.cycles == 2) = true := by decide

/-- V-FS-07: `CLV`. -/
theorem test_clv_V_FS_07 :
    after plain
      { start 0x1000 [0xB8] [] with p := ⟨true, true, false, false, false, true⟩ }
      (fun t => t.pc == 0x1001 && t.p == ⟨true, false, false, false, false, true⟩ && dataOf 1 t == [] &&
        t.cycles == 2) = true := by decide

/-- V-FS-08: `NOP`. -/
theorem test_nop_V_FS_08 :
    after plain
      { start 0x1000 [0xEA] [] with a := 0x12, p := ⟨true, false, false, false, false, true⟩ }
      (fun t => t.pc == 0x1001 && t.p == ⟨true, false, false, false, false, true⟩ && dataOf 1 t == [] &&
        t.cycles == 2) = true := by decide

/-- V-FS-09: `BRK`. -/
theorem test_brk_V_FS_09 :
    after plain
      { start 0x1000 [0x00] [(0xFFFE, 0x00), (0xFFFF, 0x20)] with p := ⟨false, false, false, false, true, true⟩ }
      (fun t => t.sp == 0xFC && t.pc == 0x2000 && t.p == ⟨false, false, false, true, true, true⟩ &&
        dataOf 1 t == [⟨.write, 0x01FF, 0x10⟩, ⟨.write, 0x01FE, 0x02⟩, ⟨.write, 0x01FD, 0x33⟩, ⟨.read, 0xFFFE, 0x00⟩, ⟨.read, 0xFFFF, 0x20⟩] &&
        t.cycles == 7) = true := by decide

/-- V-FS-10: `RTI`. -/
theorem test_rti_V_FS_10 :
    after plain
      { start 0x2000 [0x40] [(0x01FD, 0x33), (0x01FE, 0x02), (0x01FF, 0x10)] with
        sp := 0xFC, p := ⟨false, false, false, true, false, false⟩ }
      (fun t => t.sp == 0xFF && t.pc == 0x1002 && t.p == ⟨false, false, false, false, true, true⟩ &&
        dataOf 1 t == [⟨.read, 0x01FD, 0x33⟩, ⟨.read, 0x01FE, 0x02⟩, ⟨.read, 0x01FF, 0x10⟩] &&
        t.cycles == 6) = true := by decide

/-- V-FS-11: `BRK`. -/
theorem test_brk_V_FS_11 :
    after plain
      { start 0x1000 [0x00] [(0xFFFE, 0x34), (0xFFFF, 0x12)] with
        sp := 0x01, p := ⟨true, true, true, true, false, false⟩ }
      (fun t => t.sp == 0xFE && t.pc == 0x1234 && t.p == ⟨true, true, true, true, false, false⟩ &&
        dataOf 1 t == [⟨.write, 0x0101, 0x10⟩, ⟨.write, 0x0100, 0x02⟩, ⟨.write, 0x01FF, 0xFC⟩, ⟨.read, 0xFFFE, 0x34⟩, ⟨.read, 0xFFFF, 0x12⟩] &&
        t.cycles == 7) = true := by decide

/-- V-FS-12: `RTI`. -/
theorem test_rti_V_FS_12 :
    after plain
      { start 0x2000 [0x40] [(0x01FF, 0xFF), (0x0100, 0x00), (0x0101, 0x30)] with sp := 0xFE }
      (fun t => t.sp == 0x01 && t.pc == 0x3000 && t.p == ⟨true, true, true, true, true, true⟩ &&
        dataOf 1 t == [⟨.read, 0x01FF, 0xFF⟩, ⟨.read, 0x0100, 0x00⟩, ⟨.read, 0x0101, 0x30⟩] &&
        t.cycles == 6) = true := by decide

/-! ### Interrupts and reset (96_test_vectors_opcodes_interrupts.md section 3), one boundary each -/

/-- The vectors of those scenarios: NMI $FE43, reset $FCE2, IRQ and BRK $EA31. -/
def vectors : List (Word × Byte) :=
  [(0xFFFA, 0x43), (0xFFFB, 0xFE), (0xFFFC, 0xE2), (0xFFFD, 0xFC), (0xFFFE, 0x31), (0xFFFF, 0xEA)]

/-- V-INT-01, boundary 2: an IRQ with I clear. -/
def irqDue : State :=
  { start 0x1002 [0xA9, 0x02] vectors with
    p := ⟨true, false, true, false, false, true⟩
    lines := [{ irqLow := true }] }

theorem test_irq_entry :
    after plain irqDue
      (fun t => t.pc == 0xEA31 && t.sp == 0xFC && t.p == ⟨true, false, true, true, false, true⟩ &&
        (t.accesses.take 3).map (fun a => a.val) == [0x10, 0x02, 0xA9] && t.cycles == 7) = true := by decide

/-- V-INT-07, boundary 1: an NMI edge with I set. -/
def nmiDue : State :=
  { start 0x1000 [0xA9, 0x01] vectors with
    p := ⟨false, false, false, true, false, false⟩
    lines := [{ nmiLow := true }] }

theorem test_nmi_entry :
    after plain nmiDue
      (fun t => t.pc == 0xFE43 && t.sp == 0xFC && t.p.i && !t.nmiPending && !t.nmiPrev &&
        (t.accesses.take 3).map (fun a => a.val) == [0x10, 0x00, 0x24]) = true := by decide

/-- V-INT-04b, boundary 2: latency 1 keeps the IRQ out right after CLI. -/
def afterCli : State :=
  { start 0x1001 [0xA9, 0x01] vectors with iDelayed := some true, lines := [{ irqLow := true }] }

theorem test_latency_keeps_the_old_mask :
    after ⟨false, true, true⟩ afterCli (fun t => t.pc == 0x1003 && t.a == 0x01) = true ∧
      after plain afterCli (fun t => t.pc == 0xEA31) = true := by decide

/-- The last of two cycles or more of RES has passed; NMI is low. -/
def resetDue : State :=
  { start 0x1234 [] vectors with resCycles := 2, nmiPending := true, lines := [{ nmiLow := true }] }

/-- V-INT-09. -/
theorem test_reset_release :
    after plain resetDue
      (fun t => t.pc == 0xFCE2 && t.p.i && !t.nmiPending && !t.nmiPrev && t.cycles == 6 &&
        t.accesses == [⟨.read, 0xFFFC, 0xE2⟩, ⟨.read, 0xFFFD, 0xFC⟩]) = true := by decide

/-- The same with RDY low for three cycles at the reads of the vector (R287, R324). -/
theorem test_reset_release_held :
    after plain { resetDue with lines := [{ rdyHeld := 3 }] } (fun t => t.pc == 0xFCE2 && t.cycles == 9 && t.lines == []) =
      true := by decide

/-- The boundary after the reset sequence, with a NOP at the vector and the detector last at a high line. -/
def resetLeft (ln : Lines) : State :=
  { start 0xFCE2 [0xEA] vectors with
    p := ⟨false, false, false, true, false, false⟩, afterReset := true, lines := [ln, { nmiLow := true }] }

/-- An NMI edge during the six cycles of the reset sequence is discarded (R279, D13); one after the first instruction
has begun is not. -/
theorem test_edge_in_reset_is_discarded :
    after plain (resetLeft { nmiLow := true }) (fun t => t.pc == 0xFCE3 && !t.nmiPending && !t.nmiPrev && !t.afterReset) =
        true ∧
      after plain (resetLeft { nmiFell := true, irqLow := true })
        (fun t => t.pc == 0xFCE3 && !t.nmiPending && after plain t (fun u => u.pc == 0xFE43)) = true := by decide

/-- Right after an IRQ entry that is no boundary: RDY lengthens the first handler instruction, and an NMI edge is held
until the boundary after it (R39, R287, D20). -/
theorem test_step_after_entry :
    after ⟨false, false, false⟩
      { start 0xEA31 [0xEA] vectors with afterEntry := true, lines := [{ nmiLow := true, rdyHeld := 40 }] }
      (fun t => t.pc == 0xEA32 && t.cycles == 42 && t.nmiPending && t.lines == []) = true := by decide

/-- RES falls in a PHA after its opcode fetch and before its write, or after both (R279). -/
def abandoned (k : Nat) : State :=
  { start 0x1000 [0x48] [] with a := 0x42, lines := [{ resLow := 2, resAfter := k }] }

theorem test_res_in_mid_instruction :
    after plain (abandoned 1) (fun t => t.mem.read 0x01FF == 0x00 && t.resCycles == 2) = true ∧
      after plain (abandoned 2) (fun t => t.mem.read 0x01FF == 0x42) = true := by decide

/-- RES falls while RDY holds the opcode fetch, before any access is performed: the held cycles count (R279, R324). -/
theorem test_res_at_a_held_fetch :
    after plain { abandoned 0 with lines := [{ resLow := 2, rdyHeld := 5 }] }
      (fun t => t.cycles == 7 && t.resCycles == 2 && t.accesses == []) = true := by decide

/-- V-INT-10, and the two inputs the spec has a model refuse. -/
theorem test_refusals :
    refusedWith plain (start 0x1000 [0x02] []) (.undocumentedOpcode 0x02) = true ∧
      refusedWith plain { start 0x1000 [0xEA] [] with resCycles := 1 } .resetPulseTooShort = true ∧
      refusedWith plain { start 0x1000 [0xEA] [] with lines := [{ aecTakesBus := true }] } .busTakenDuringAccess =
        true ∧
      refusedWith plain { resetDue with lines := [{ aecTakesBus := true }] } .busTakenDuringAccess = true ∧
      refusedWith ⟨false, false, false⟩
        { start 0x1000 [0xEA] [] with afterEntry := true, lines := [{ aecTakesBus := true }] } .busTakenDuringAccess =
        true := by decide

/-- The bus: ROM keeps its byte, a device read logs what it gave, and neither stores (R61, R62). -/
theorem test_rom_keeps_its_byte :
    after plain
      { start 0x1000 [0x8D, 0x00, 0xE0] [(0xE000, 0x55)] with a := 0x99, busMap := [⟨0xE000, 0x2000, .rom⟩] }
      (fun t => t.mem.read 0xE000 == 0x55 && dataOf 3 t == [⟨.write, 0xE000, 0x99⟩]) = true := by decide

/-! ### Witnesses: for each obligation with hypotheses, states and operands that meet them -/

/-- An instruction with idle lines runs under every parameter setting. -/
theorem undisturbed_of_idle (p : Params) {s : State} (h1 : ResHigh s) (h2 : (currentLines s).aecTakesBus = false)
    (h3 : nmiSeen s = false) (h4 : (currentLines s).irqLow = false) : Undisturbed p s :=
  ⟨h1, h2, fun _ => ⟨h3, .inl h4⟩⟩

/-- Code that wraps: the opcode at $FFFF, the operand byte in the DDR at $0000. -/
def wrapped : State :=
  { start 0xFFFF [] [(0xFFFF, 0xA9)] with ddr := 0x2F }

theorem witness_DecodeInvertsEncode :
    (Instr.ldaAbs 0xFFFF).WellFormed ∧ (Instr.bne 0x80).WellFormed ∧ Instr.brk.WellFormed ∧
      decodesTo [0x6C, 0xFF, 0xC0] (.jmpInd 0xC0FF) = true := by decide

theorem witness_AssemblerFormsAreTheInstructions :
    (⟨.bne, .relative, -128⟩ : SourceForm).wellFormed = true ∧ (Instr.bne 0x80).source = ⟨.bne, .relative, -128⟩ ∧
      (Instr.ldaAbs 0x0044).source ≠ (Instr.ldaZpg 0x44).source := by decide

theorem witness_OpcodeMapCounts : Mode.indirectY ∈ Mnemonic.modes .sta ∧ Mode.relative ∈ Mnemonic.modes .bvs := by decide

theorem witness_OpcodeByteAloneSelects :
    opcodeOf (.ldaAbs 0) = opcodeOf (.ldaAbs 0xFFFF) ∧ decodesTo (0xAD :: [0xFF, 0xFF]) (.ldaAbs 0xFFFF) = true := by
  decide

theorem witness_UndocumentedOpcodesAreRefused :
    Undisturbed Config.params (start 0x1000 [0xFF] []) ∧ plainRead (start 0x1000 [0xFF] []) 0x1000 = true ∧
      undocumented (byteAt (start 0x1000 [0xFF] []) 0x1000) = true :=
  ⟨undisturbed_of_idle _ ⟨rfl, rfl⟩ rfl rfl rfl, rfl, by decide⟩

/-- Instructions of one, two and three bytes, one of them across the top of the address space. -/
theorem witness_StepRunsTheDecodedInstruction :
    (Instr.nop.WellFormed ∧ BytesAtPc .nop (start 0x1000 [0xEA] []) ∧
      ∀ p, Undisturbed p (start 0x1000 [0xEA] [])) ∧
    ((Instr.ldaImm 0x2F).WellFormed ∧ BytesAtPc (.ldaImm 0x2F) wrapped ∧ ∀ p, Undisturbed p wrapped) ∧
    (BytesAtPc (.jmpAbs 0x4400) (start 0xFFFD [0x4C, 0x00, 0x44] []) ∧
      Undisturbed ⟨false, false, false⟩
        { start 0xFFFD [0x4C, 0x00, 0x44] [] with afterEntry := true, nmiPending := true }) ∧
    Undisturbed plain { irqDue with p := ⟨false, false, false, true, false, false⟩ } := by
  refine ⟨⟨by decide, by unfold BytesAtPc; decide, fun p => undisturbed_of_idle p ⟨rfl, rfl⟩ rfl rfl rfl⟩,
    ⟨by decide, by unfold BytesAtPc; decide, fun p => undisturbed_of_idle p ⟨rfl, rfl⟩ rfl rfl rfl⟩,
    ⟨by unfold BytesAtPc; decide, ⟨⟨rfl, rfl⟩, rfl, fun h => by cases h⟩⟩,
    ⟨⟨rfl, rfl⟩, rfl, fun _ => ⟨rfl, .inr rfl⟩⟩⟩

/-- The state after any step that gives a next one. -/
theorem next_of_after {p : Params} {s : State} {f : State → Bool} (h : after p s f = true) :
    ∃ t, boundary p s = .next t ∧ f t = true := by
  unfold after at h
  split at h
  · exact ⟨_, by assumption, h⟩
  · cases h
  · cases h

/-- States right after an entry and right after reset are sound; with an NMI pending, or with I clear after reset, they
are not. -/
theorem witness_EveryStepKeepsSound :
    Sound (start 0x1000 [0xEA] []) ∧ (∃ t, step (start 0x1000 [0xEA] []) = .next t) ∧
      Sound { start 0xEA31 [0x40] [] with afterEntry := true } ∧ Sound (resetLeft {}) ∧
      ¬ Sound { start 0xEA31 [0x40] [] with afterEntry := true, nmiPending := true } ∧
      ¬ Sound { start 0x1000 [0xEA] [] with afterReset := true } ∧
      ¬ Sound { start 0x1000 [] [] with mem := [(1, 5)] } := by
  unfold Sound
  exact ⟨by decide, ⟨_, rfl⟩, by decide, by decide, by decide, by decide, by decide⟩

theorem witness_StepsSpendTimeAndConsumeInputs :
    (∃ t, step (start 0x1000 [0xEA] []) = .next t) ∧ ResHigh (start 0x1000 [0xEA] []) ∧
      ∃ t, step { start 0x1000 [] [] with lines := [{ resLow := 1 }] } = .next t :=
  ⟨⟨_, rfl⟩, ⟨rfl, rfl⟩, ⟨_, rfl⟩⟩

/-- RES falling at the boundary itself, and RES held on. -/
theorem witness_ResHoldsTheProcessor :
    (0 < (currentLines (abandoned 0)).resLow ∧ (currentLines (abandoned 0)).resAfter = 0) ∧
      (0 < (currentLines { abandoned 3 with resCycles := 1 }).resLow ∧ 0 < { abandoned 3 with resCycles := 1 }.resCycles) := by
  decide

theorem witness_AbandonedActionLeavesAPrefix :
    0 < (currentLines (abandoned 2)).resLow ∧ (abandoned 2).resCycles = 0 ∧ 0 < (currentLines (abandoned 2)).resAfter ∧
      (∃ u, action plain ((abandoned 2).setAccesses []) = .next u ∧
        u.accesses = [⟨.read, 0x1000, 0x48⟩] ++ ⟨.write, 0x01FF, 0x42⟩ :: []) ∧
      stores (abandoned 2) 0x01FF = true :=
  ⟨by decide, rfl, by decide, ⟨_, rfl, rfl⟩, by decide⟩

theorem witness_ReleaseRunsTheResetSequence :
    (currentLines resetDue).resLow = 0 ∧ 2 ≤ resetDue.resCycles ∧ (currentLines resetDue).aecTakesBus = false ∧
      plainRead resetDue 0xFFFC = true ∧ plainRead resetDue 0xFFFD = true := by decide

/-- AEC in an action, in the step after an entry, and at the shortest reset. -/
theorem witness_InputsOutsideTheModelAreRefused :
    ((currentLines { resetDue with resCycles := 1 }).resLow = 0) ∧
      (ResHigh { irqDue with lines := [{ aecTakesBus := true }] } ∧
        ResHigh { irqDue with afterEntry := true, lines := [{ aecTakesBus := true }] }) ∧
      (2 ≤ { resetDue with lines := [{ aecTakesBus := true }] }.resCycles ∧
        (currentLines { resetDue with lines := [{ aecTakesBus := true }] }).aecTakesBus = true) :=
  ⟨rfl, ⟨⟨rfl, rfl⟩, rfl, rfl⟩, by decide, rfl⟩

/-- An edge seen by level, one that rose again, and one pending from before; the last right after an entry that is a
boundary. -/
theorem witness_NmiEntryAtABoundary :
    (ResHigh nmiDue ∧ (∀ p, examinesInterrupts p nmiDue = true) ∧ (currentLines nmiDue).aecTakesBus = false ∧
      nmiSeen nmiDue = true) ∧
    nmiSeen { nmiDue with lines := [{ nmiFell := true }] } = true ∧
    (nmiSeen { nmiDue with lines := [], nmiPending := true } = true ∧
      examinesInterrupts plain { nmiDue with afterEntry := true } = true) ∧
    plainRead nmiDue 0xFFFA = true ∧ plainRead nmiDue 0xFFFB = true ∧ StackIsRam nmiDue :=
  ⟨⟨⟨rfl, rfl⟩, fun _ => rfl, rfl, rfl⟩, rfl, ⟨rfl, rfl⟩, rfl, rfl, fun _ => rfl⟩

theorem witness_IrqEntryAtABoundary :
    (ResHigh irqDue ∧ (∀ p, examinesInterrupts p irqDue = true) ∧ (currentLines irqDue).aecTakesBus = false ∧
      nmiSeen irqDue = false ∧ (currentLines irqDue).irqLow = true ∧ effectiveI plain irqDue = false) ∧
    effectiveI ⟨false, true, true⟩ { irqDue with p := ⟨false, false, false, true, false, false⟩, iDelayed := some false } =
      false ∧
    plainRead irqDue 0xFFFE = true ∧ plainRead irqDue 0xFFFF = true ∧ StackIsRam irqDue :=
  ⟨⟨⟨rfl, rfl⟩, fun _ => rfl, rfl, rfl, rfl, rfl⟩, rfl, rfl, rfl, fun _ => rfl⟩

theorem witness_EntriesExactlyWhenDue :
    (ResHigh irqDue ∧ ∃ t, boundary plain irqDue = .next t ∧ t.afterEntry = true) ∧
      (ResHigh (start 0x1000 [0xEA] []) ∧ ∃ t, boundary plain (start 0x1000 [0xEA] []) = .next t ∧ t.afterEntry = false) :=
  ⟨⟨⟨rfl, rfl⟩, _, rfl, rfl⟩, ⟨rfl, rfl⟩, _, rfl, rfl⟩

/-- An instruction, an entry, RES held and RES released. -/
theorem witness_OnlyCliSeiPlpDelayTheMask :
    ((∀ p, Undisturbed p (start 0x1000 [0x58] [])) ∧ BytesAtPc .cli (start 0x1000 [0x58] []) ∧
      BytesAtPc .nop (start 0x1000 [0xEA] [])) ∧
    ((∃ t, boundary plain irqDue = .next t) ∧ (∃ t, boundary plain (abandoned 0) = .next t) ∧
      ∃ t, boundary plain resetDue = .next t) :=
  ⟨⟨fun p => undisturbed_of_idle p ⟨rfl, rfl⟩ rfl rfl rfl, by unfold BytesAtPc; decide, by unfold BytesAtPc; decide⟩,
    ⟨_, rfl⟩, ⟨_, rfl⟩, ⟨_, rfl⟩⟩

/-- A stack pointer at each end of its page, all of it RAM. -/
def stacked (sp : Byte) : State :=
  { start 0x1000 [] vectors with sp := sp }

theorem witness_BrkTakesItsException :
    StackIsRam (stacked 0x00) ∧ plainRead (stacked 0x00) 0xFFFE = true ∧ plainRead (stacked 0x00) 0xFFFF = true :=
  ⟨fun _ => rfl, rfl, rfl⟩

theorem witness_RtiReturns :
    plainRead (stacked 0xFF) (stackAddr 0x00) = true ∧ plainRead (stacked 0xFF) (stackAddr 0x01) = true ∧
      plainRead (stacked 0xFF) (stackAddr 0x02) = true := by decide

theorem witness_ReturnUndoesEntry : StackIsRam (stacked 0x01) ∧ StackIsRam (stacked 0xFF) :=
  ⟨fun _ => rfl, fun _ => rfl⟩

theorem witness_PhaPushesAndPlaPulls :
    plainRead (stacked 0xFF) (stackAddr ((stacked 0xFF).sp + 1)) = true ∧ stores (stacked 0x00) (stackAddr 0x00) = true := by
  decide

theorem witness_PhpPushesAndPlpPulls :
    plainRead (stacked 0xFF) (stackAddr ((stacked 0xFF).sp + 1)) = true ∧
      plainRead (stacked 0xFE) (stackAddr ((stacked 0xFE).sp + 1)) = true := by decide

theorem witness_PushThenPullRestores : StackIsRam (stacked 0x00) ∧ StackIsRam (stacked 0xFF) :=
  ⟨fun _ => rfl, fun _ => rfl⟩

theorem witness_PullsReverseThePushes : StackIsRam (stacked 0x00) ∧ (List.replicate 256 (0 : Byte)).length ≤ 256 :=
  ⟨fun _ => rfl, by rw [List.length_replicate]⟩

theorem witness_JsrPushesTheReturnAddress : StackIsRam (stacked 0x00) :=
  fun _ => rfl

theorem witness_RtsReturnsPastTheAddress :
    plainRead (stacked 0xFE) (stackAddr ((stacked 0xFE).sp + 1)) = true ∧
      plainRead (stacked 0xFE) (stackAddr ((stacked 0xFE).sp + 2)) = true := by decide

theorem witness_JsrThenRtsResumes : StackIsRam (stacked 0x00) :=
  fun _ => rfl

theorem witness_LoadsTakeTheOperand :
    (Instr.ldaIndY 0xFF).mnemonic = .lda ∧ (Instr.ldxZpgY 0xFF).mnemonic = .ldx ∧ (Instr.ldyImm 0).mnemonic = .ldy := by
  decide

theorem witness_StoresWriteTheRegister :
    (Instr.staXInd 0xFF).mnemonic = .sta ∧ (Instr.stxZpgY 0xFF).mnemonic = .stx ∧ (Instr.styAbs 0).mnemonic = .sty := by
  decide

/-- D set or clear, A and C as given. -/
def decimal (d : Bool) (a : Byte) (c : Bool) : State :=
  { start 0x1000 [] [] with a := a, p := ⟨false, false, d, false, false, c⟩ }

theorem witness_AdcAddsBinary : (Instr.adcImm 0xFF).mnemonic = .adc ∧ (decimal false 0xFF true).p.d = false := by decide

theorem witness_SbcSubtractsBinary : (Instr.sbcImm 0xFF).mnemonic = .sbc ∧ (decimal false 0x00 false).p.d = false := by
  decide

theorem witness_DecimalArithmeticOnBcd :
    ((Instr.adcImm 0x99).mnemonic = .adc ∧ (Instr.sbcImm 0x99).mnemonic = .sbc ∧ (decimal true 0x99 true).p.d = true) ∧
      validBcd (decimal true 0x99 true).a = true ∧ validBcd (readData (.imm 0x00) (decimal true 0x99 true)).val = true := by
  decide

/-- The first byte above the decimal digits in each nibble, in A and in the operand. -/
theorem witness_DecimalArithmeticOnOtherBytes :
    ((Instr.adcImm 0x01).mnemonic = .adc ∧ (decimal true 0x0A false).p.d = true ∧
      (validBcd (decimal true 0x0A false).a && validBcd (readData (.imm 0x01) (decimal true 0x0A false)).val) = false) ∧
    ((Instr.sbcImm 0xA0).mnemonic = .sbc ∧
      (validBcd (decimal true 0x00 true).a && validBcd (readData (.imm 0xA0) (decimal true 0x00 true)).val) = false) := by
  decide

theorem witness_SbcIsAdcOfTheComplement :
    (decimal false 0x80 true).p.d = false ∧ (decimal false 0x00 false).p.d = false := by decide

theorem witness_CarryChainsWideArithmetic : (decimal false 0xFF true).p.d = false := by decide

theorem witness_IncAndDecModifyMemory :
    (Instr.incZpg 0x01).mnemonic = .inc ∧ (Instr.decAbsX 0xFFFF).mnemonic = .dec := by decide

theorem witness_LogicIsBitwise :
    (Instr.andImm 0).mnemonic = .and ∧ (Instr.oraXInd 0xFF).mnemonic = .ora ∧ (Instr.eorIndY 0xFF).mnemonic = .eor := by
  decide

theorem witness_BitTestsMemory : (Instr.bitZpg 0x00).mnemonic = .bit ∧ (Instr.bitAbs 0xFFFF).mnemonic = .bit := by decide

theorem witness_ShiftsAndRotates :
    Instr.aslA.mnemonic ∈ [Mnemonic.asl, .lsr, .rol, .ror] ∧
      (Instr.rorAbsX 0xFFFF).mnemonic ∈ [Mnemonic.asl, .lsr, .rol, .ror] := by decide

/-- The lowest and the highest address of RAM. -/
theorem witness_RotatesUndoEachOther :
    ((0x0002 : Word) ≠ 0x0000#16 ∧ (0x0002 : Word) ≠ 0x0001#16 ∧ busKind (start 0x1000 [] []) 0x0002 = .ram) ∧
      busKind (start 0x1000 [] []) 0xFFFF = .ram := by decide

theorem witness_ComparesSetFlagsOnly :
    (Instr.cmpImm 0xFF).mnemonic = .cmp ∧ (Instr.cpxZpg 0).mnemonic = .cpx ∧ (Instr.cpyAbs 0xFFFF).mnemonic = .cpy := by
  decide

theorem witness_BranchAfterCompare :
    (Instr.cmpIndY 0xFF).mnemonic = .cmp ∧
      (Instr.bpl 0x80, Instr.bmi 0x80) ∈ [(Instr.bcc 0x80, Instr.bcs 0x80), (.bne 0x80, .beq 0x80), (.bpl 0x80, .bmi 0x80),
        (.bvc 0x80, .bvs 0x80)] := by decide

theorem witness_BranchesMoveOnlyPc :
    (Instr.bvs 0x7F).mnemonic ∈ [Mnemonic.bcc, .bcs, .beq, .bne, .bmi, .bpl, .bvc, .bvs] ∧
      (branchTaken .bvs { (start 0x1000 [] []).p with v := true } = true ∧ branchTaken .bvs (start 0x1000 [] []).p = false) := by
  decide

/-- A pointer at the end of a page and one inside it. -/
theorem witness_JumpsSetPc :
    (Instr.jmpInd 0xC0FF).mode = .absoluteIndirect ∧ plainRead (start 0x1000 [] []) 0xC0FF = true ∧
      plainRead (start 0x1000 [] []) (0xC0FF - 255) = true ∧ plainRead (start 0x1000 [] []) (0xC0FE + 1) = true := by decide

theorem witness_PortReadsLatchOrPins : (start 0x1000 [] []).portIn = 0x3F#6 :: [0x3F] := by decide

/-- The port's two addresses, RAM at both ends, and ROM. -/
theorem witness_WritesReachTheirLocation :
    let s := { start 0x1000 [] [] with busMap := [⟨0xE000, 0x2000, .rom⟩] }
    (busKind s 0x0002 = .ram ∧ busKind s 0xDFFF = .ram) ∧ busKind s 0xE000 ≠ .ram ∧ busKind s 0xFFFF ≠ .ram := by decide

theorem witness_StoreThenLoadGivesTheByte :
    ((0x0002 : Word) ≠ 0x0000#16 ∧ (0x0002 : Word) ≠ 0x0001#16 ∧ busKind (start 0x1000 [] []) 0x0002 = .ram) ∧
      busKind (start 0x1000 [] []) 0xFFFF = .ram := by decide

/-- The pointer at $FF, whose high byte is the DDR at $0000. -/
theorem witness_EffectiveAddresses :
    let s := { start 0x1000 [] [(0x00FF, 0x10)] with x := 0x10, y := 0xFF, ddr := 0x2F }
    ((0x00FF : Word).toNat = ((0xEF : Byte).toNat + s.x.toNat) % 256 ∧
      (0x0000 : Word).toNat = ((0xEF : Byte).toNat + s.x.toNat + 1) % 256) ∧
    ((0x00FF : Word).toNat = (0xFF : Byte).toNat ∧ (0x0000 : Word).toNat = ((0xFF : Byte).toNat + 1) % 256) ∧
    plainRead s 0x00FF = true ∧ plainRead s 0x0000 = true ∧ plainRead s (resolve (.indY 0xFF) s).addr = true ∧
    (Instr.stxZpgY 0).mode = .zeroPageY := by decide

theorem witness_RegisterFrame :
    writesA (.cmpImm 0) = false ∧ writesA (.aslZpg 0) = false ∧ writesX (.ldaImm 0) = false ∧ writesY .tax = false ∧
      writesSp .tsx = false ∧ transfersControl .nop = false := by decide

theorem witness_FlagFrame :
    writesNZ (.staZpg 0) = false ∧ writesC (.incZpg 0) = false ∧ writesV (.cmpImm 0) = false ∧ writesD (.adcImm 0) = false ∧
      writesI .php = false := by decide

theorem witness_MemoryFrame :
    storeTargets (.cmpImm 0) (start 0x1000 [] []) = [] ∧ storeTargets .aslA (start 0x1000 [] []) = [] ∧
      (0x0100 : Word) ∉ storeTargets .pha (start 0x1000 [] []) := by decide

/-- A release with NMI high, and the edge at the boundary after it. -/
def released : State :=
  { start 0xFCE2 [0xEA] vectors with resCycles := 2, lines := [{}, { nmiLow := true, nmiFell := true, irqLow := true }] }

theorem witness_TheInstructionAtTheVectorRunsFirst :
    (currentLines released).resLow = 0 ∧ 0 < released.resCycles ∧
      ∃ t, boundary plain released = .next t ∧ ResHigh t ∧ (currentLines t).aecTakesBus = false ∧ BytesAtPc .nop t ∧
        (t.nmiPrev && (currentLines t).nmiLow) = true :=
  ⟨rfl, by decide, _, rfl, ⟨rfl, rfl⟩, rfl, by unfold BytesAtPc; decide, rfl⟩

end Sys2Proof.Tests
end

section
/-! PROOFS. The reset state: what its memory holds, and the values 10_state.md section 8 gives it. -/

namespace Sys2Proof.Machine

/-- Apart from the port registers, `byteAt` looks in the external memory. -/
theorem byteAt_of_external (s : State) {addr : Word} (h0 : addr ≠ 0x0000#16) (h1 : addr ≠ 0x0001#16) :
    byteAt s addr = s.mem.read addr.toNat := by
  simp only [byteAt, if_neg h0, if_neg h1]

/-- The reset state lists no memory (assumption log 1 and 10). -/
theorem byteAt_reset_of_external {addr : Word} (h0 : addr ≠ 0x0000#16) (h1 : addr ≠ 0x0001#16) :
    byteAt State.reset addr = Memory.unlisted := by
  rw [byteAt_of_external _ h0 h1]
  exact Memory.read_nil _

/-- R44: both bytes of the reset vector are unlisted, and PC is the word they make. -/
theorem reset_pc_eq_resetVector_word :
    State.reset.pc = mkWord (byteAt State.reset 0xFFFD) (byteAt State.reset 0xFFFC) := by
  have hhi : byteAt State.reset 0xFFFD = Memory.unlisted := byteAt_reset_of_external (by decide) (by decide)
  have hlo : byteAt State.reset 0xFFFC = Memory.unlisted := byteAt_reset_of_external (by decide) (by decide)
  rw [hhi, hlo]
  rfl

/-- Settles O10: I (R43) and the NMI pending bit (R48, D13) are fields of the reset state, PC is R44. -/
theorem resetStateHoldsTheStatedValues : Obligations.ResetStateHoldsTheStatedValues :=
  ⟨rfl, reset_pc_eq_resetVector_word, rfl⟩

end Sys2Proof.Machine
end

section
/-! PROOFS. The opcode map (R100 to R102, R118 to R120): which mnemonic and mode an opcode byte selects, what `decode`
answers with, how long an encoding is, and how many opcode bytes there are. -/

namespace Sys2Proof

open Sys2Proof.Laws

/-! ### The instructions of an opcode byte -/

/-- The family `OpcodeLookup` put together: one law for each constructor. -/
theorem opcodeLookup (i : Instr) : OpcodeLookup.Statement i := by
  cases i
  exacts [OpcodeLookup.ldaImm _, OpcodeLookup.ldaZpg _, OpcodeLookup.ldaZpgX _, OpcodeLookup.ldaAbs _,
    OpcodeLookup.ldaAbsX _, OpcodeLookup.ldaAbsY _, OpcodeLookup.ldaXInd _, OpcodeLookup.ldaIndY _,
    OpcodeLookup.ldxImm _, OpcodeLookup.ldxZpg _, OpcodeLookup.ldxZpgY _, OpcodeLookup.ldxAbs _,
    OpcodeLookup.ldxAbsY _, OpcodeLookup.ldyImm _, OpcodeLookup.ldyZpg _, OpcodeLookup.ldyZpgX _,
    OpcodeLookup.ldyAbs _, OpcodeLookup.ldyAbsX _, OpcodeLookup.staZpg _, OpcodeLookup.staZpgX _,
    OpcodeLookup.staAbs _, OpcodeLookup.staAbsX _, OpcodeLookup.staAbsY _, OpcodeLookup.staXInd _,
    OpcodeLookup.staIndY _, OpcodeLookup.stxZpg _, OpcodeLookup.stxZpgY _, OpcodeLookup.stxAbs _,
    OpcodeLookup.styZpg _, OpcodeLookup.styZpgX _, OpcodeLookup.styAbs _, OpcodeLookup.tax, OpcodeLookup.tay,
    OpcodeLookup.txa, OpcodeLookup.tya, OpcodeLookup.tsx, OpcodeLookup.txs, OpcodeLookup.pha, OpcodeLookup.php,
    OpcodeLookup.pla, OpcodeLookup.plp, OpcodeLookup.adcImm _, OpcodeLookup.adcZpg _, OpcodeLookup.adcZpgX _,
    OpcodeLookup.adcAbs _, OpcodeLookup.adcAbsX _, OpcodeLookup.adcAbsY _, OpcodeLookup.adcXInd _,
    OpcodeLookup.adcIndY _, OpcodeLookup.sbcImm _, OpcodeLookup.sbcZpg _, OpcodeLookup.sbcZpgX _,
    OpcodeLookup.sbcAbs _, OpcodeLookup.sbcAbsX _, OpcodeLookup.sbcAbsY _, OpcodeLookup.sbcXInd _,
    OpcodeLookup.sbcIndY _, OpcodeLookup.incZpg _, OpcodeLookup.incZpgX _, OpcodeLookup.incAbs _,
    OpcodeLookup.incAbsX _, OpcodeLookup.decZpg _, OpcodeLookup.decZpgX _, OpcodeLookup.decAbs _,
    OpcodeLookup.decAbsX _, OpcodeLookup.inx, OpcodeLookup.iny, OpcodeLookup.dex, OpcodeLookup.dey,
    OpcodeLookup.andImm _, OpcodeLookup.andZpg _, OpcodeLookup.andZpgX _, OpcodeLookup.andAbs _,
    OpcodeLookup.andAbsX _, OpcodeLookup.andAbsY _, OpcodeLookup.andXInd _, OpcodeLookup.andIndY _,
    OpcodeLookup.oraImm _, OpcodeLookup.oraZpg _, OpcodeLookup.oraZpgX _, OpcodeLookup.oraAbs _,
    OpcodeLookup.oraAbsX _, OpcodeLookup.oraAbsY _, OpcodeLookup.oraXInd _, OpcodeLookup.oraIndY _,
    OpcodeLookup.eorImm _, OpcodeLookup.eorZpg _, OpcodeLookup.eorZpgX _, OpcodeLookup.eorAbs _,
    OpcodeLookup.eorAbsX _, OpcodeLookup.eorAbsY _, OpcodeLookup.eorXInd _, OpcodeLookup.eorIndY _,
    OpcodeLookup.bitZpg _, OpcodeLookup.bitAbs _, OpcodeLookup.aslA, OpcodeLookup.aslZpg _, OpcodeLookup.aslZpgX _,
    OpcodeLookup.aslAbs _, OpcodeLookup.aslAbsX _, OpcodeLookup.lsrA, OpcodeLookup.lsrZpg _, OpcodeLookup.lsrZpgX _,
    OpcodeLookup.lsrAbs _, OpcodeLookup.lsrAbsX _, OpcodeLookup.rolA, OpcodeLookup.rolZpg _, OpcodeLookup.rolZpgX _,
    OpcodeLookup.rolAbs _, OpcodeLookup.rolAbsX _, OpcodeLookup.rorA, OpcodeLookup.rorZpg _, OpcodeLookup.rorZpgX _,
    OpcodeLookup.rorAbs _, OpcodeLookup.rorAbsX _, OpcodeLookup.cmpImm _, OpcodeLookup.cmpZpg _,
    OpcodeLookup.cmpZpgX _, OpcodeLookup.cmpAbs _, OpcodeLookup.cmpAbsX _, OpcodeLookup.cmpAbsY _,
    OpcodeLookup.cmpXInd _, OpcodeLookup.cmpIndY _, OpcodeLookup.cpxImm _, OpcodeLookup.cpxZpg _,
    OpcodeLookup.cpxAbs _, OpcodeLookup.cpyImm _, OpcodeLookup.cpyZpg _, OpcodeLookup.cpyAbs _, OpcodeLookup.bcc _,
    OpcodeLookup.bcs _, OpcodeLookup.beq _, OpcodeLookup.bne _, OpcodeLookup.bmi _, OpcodeLookup.bpl _,
    OpcodeLookup.bvc _, OpcodeLookup.bvs _, OpcodeLookup.jmpAbs _, OpcodeLookup.jmpInd _, OpcodeLookup.jsr _,
    OpcodeLookup.rts, OpcodeLookup.clc, OpcodeLookup.sec, OpcodeLookup.cli, OpcodeLookup.sei, OpcodeLookup.cld,
    OpcodeLookup.sed, OpcodeLookup.clv, OpcodeLookup.brk, OpcodeLookup.nop, OpcodeLookup.rti]

/-- The instructions that a template gives, one for each operand. -/
def Template.Yields : Template → Instr → Prop
  | .bare j, i => i = j
  | .withByte f, i => ∃ b, i = f b
  | .withWord f, i => ∃ w, i = f w

@[simp] theorem Template.yields_bare (i j : Instr) : (Template.bare j).Yields i ↔ i = j := Iff.rfl
@[simp] theorem Template.yields_withByte (f : Byte → Instr) (i : Instr) :
    (Template.withByte f).Yields i ↔ ∃ b, i = f b := Iff.rfl
@[simp] theorem Template.yields_withWord (f : Word → Instr) (i : Instr) :
    (Template.withWord f).Yields i ↔ ∃ w, i = f w := Iff.rfl

theorem Template.yields_of_complete {t : Template} {bytes : List Byte} {i : Instr} (h : complete t bytes = some i) :
    t.Yields i := by
  unfold complete at h
  split at h <;> cases h
  · exact rfl
  · exact ⟨_, rfl⟩
  · exact ⟨_, rfl⟩

/-- The opcode byte of an instruction selects a template for it. -/
theorem decodeOpcode_opcodeOf (i : Instr) : ∃ t, decodeOpcode (opcodeOf i) = some t ∧ t.Yields i := by
  obtain ⟨-, t, ht, hi⟩ := opcodeLookup i
  exact ⟨t, ht, Template.yields_of_complete hi⟩

/-- What `decode` answers with is given by the template that the first byte selects. -/
theorem decode_ok_yields {op : Byte} {more rest : List Byte} {i : Instr} (h : decode (op :: more) = .ok (i, rest)) :
    ∃ t, decodeOpcode op = some t ∧ t.Yields i := by
  simp only [decode] at h
  split at h <;> cases h
  case h_2 ht => exact ⟨_, ht, rfl⟩
  case h_3 ht => exact ⟨_, ht, _, rfl⟩
  case h_4 ht => exact ⟨_, ht, _, rfl⟩

/-! ### The cell of an opcode byte -/

/-- The cell of R120 a template stands in: its mnemonic and mode. No operand changes it (`decodeOpcode_yields`), so 0
stands for the operand. -/
def Template.cell : Template → Mnemonic × Mode
  | .bare i => (i.mnemonic, i.mode)
  | .withByte f => ((f 0).mnemonic, (f 0).mode)
  | .withWord f => ((f 0).mnemonic, (f 0).mode)

/-- What an opcode byte selects (R100), or nothing for an undocumented byte. -/
def opcodeCell (op : Byte) : Option (Mnemonic × Mode) :=
  (decodeOpcode op).map Template.cell

/-- Every instruction of the template that a byte selects is encoded with that byte, and stands in the template's cell. -/
theorem decodeOpcode_yields {op : Byte} {t : Template} (ht : decodeOpcode op = some t) :
    ∀ i, t.Yields i → opcodeOf i = op ∧ t.cell = (i.mnemonic, i.mode) := by
  have hop : op = BitVec.ofNat 8 op.toNat := by simp
  unfold decodeOpcode at ht
  generalize op.toNat = n at ht hop
  subst hop
  split at ht <;> cases ht
  all_goals
    simp only [Template.yields_bare, Template.yields_withByte, Template.yields_withWord, forall_eq, forall_exists_index,
      forall_eq_apply_imp_iff]
    intros
    exact ⟨rfl, rfl⟩

@[simp] theorem opcodeCell_opcodeOf (i : Instr) : opcodeCell (opcodeOf i) = some (i.mnemonic, i.mode) := by
  obtain ⟨t, ht, hi⟩ := decodeOpcode_opcodeOf i
  obtain ⟨-, hcell⟩ := decodeOpcode_yields ht i hi
  rw [opcodeCell, ht, Option.map_some, hcell]

theorem mnemonic_mode_of_opcodeOf_eq {i j : Instr} (h : opcodeOf i = opcodeOf j) :
    i.mnemonic = j.mnemonic ∧ i.mode = j.mode := by
  have hcell := opcodeCell_opcodeOf i
  rw [h, opcodeCell_opcodeOf j, Option.some_inj, Prod.mk.injEq] at hcell
  exact ⟨hcell.1.symm, hcell.2.symm⟩

/-! ### The length of an encoding -/

theorem Mode.length_bounds (k : Mode) : 1 ≤ k.length ∧ k.length ≤ 3 := by
  cases k <;> decide

theorem operandBytesOf_length (o : Operand) : (operandBytesOf o).length + 1 = o.mode.length := by
  rcases o with _ | _ | b | w | m | m
  case data.mem => cases m <;> rfl
  all_goals rfl

@[simp] theorem encode_length (i : Instr) : (encode i).length = i.mode.length :=
  operandBytesOf_length i.operand

/-- Settles O4: the opcode byte fixes the cell of R120, the mode fixes the length, and `decode` answers with an
instruction of the template its first byte selects. -/
theorem opcodeByteAloneSelects : Obligations.OpcodeByteAloneSelects := by
  refine ⟨fun i => ?encoding, fun i j h => ?selection, fun op more rest i h => ?decoding⟩
  case encoding =>
    rw [encode_length]
    exact ⟨rfl, rfl, i.mode.length_bounds⟩
  case selection =>
    obtain ⟨hmnemonic, hmode⟩ := mnemonic_mode_of_opcodeOf_eq h
    exact ⟨hmnemonic, hmode, by rw [encode_length, encode_length, hmode]⟩
  case decoding =>
    obtain ⟨t, ht, hi⟩ := decode_ok_yields h
    obtain ⟨hop, -⟩ := decodeOpcode_yields ht i hi
    exact hop.symm

/-! ### Counting the opcode bytes -/

/-- The documented opcode bytes, in ascending order (R101). -/
def documentedOpcodes : List Nat :=
  (List.range 256).filter fun n => (decodeOpcode (BitVec.ofNat 8 n)).isSome

/-- The cells of R120 that the documented opcode bytes select. -/
def documentedCells : List (Option (Mnemonic × Mode)) :=
  documentedOpcodes.map fun n => opcodeCell (BitVec.ofNat 8 n)

/-- The 56 mnemonics (R101). -/
def mnemonics : List Mnemonic :=
  [.lda, .ldx, .ldy, .sta, .stx, .sty, .tax, .tay, .txa, .tya, .tsx, .txs, .pha, .php, .pla, .plp, .adc, .sbc, .inc,
    .dec, .inx, .iny, .dex, .dey, .and, .ora, .eor, .bit, .asl, .lsr, .rol, .ror, .cmp, .cpx, .cpy, .bcc, .bcs, .beq,
    .bne, .bmi, .bpl, .bvc, .bvs, .jmp, .jsr, .rts, .clc, .sec, .cli, .sei, .cld, .sed, .clv, .brk, .nop, .rti]

theorem mem_mnemonics (m : Mnemonic) : m ∈ mnemonics := by
  cases m <;> decide

theorem documentedOpcodes_length : documentedOpcodes.length = 151 := by
  decide +kernel

theorem undocumentedOpcodes_length :
    ((List.range 256).filter fun n => (decodeOpcode (BitVec.ofNat 8 n)).isNone).length = 105 := by
  have hsplit := List.length_eq_length_filter_add (l := List.range 256)
    fun n => (decodeOpcode (BitVec.ofNat 8 n)).isSome
  have hdocumented := documentedOpcodes_length
  rw [documentedOpcodes] at hdocumented
  simp only [List.length_range, Option.not_isSome, hdocumented] at hsplit
  omega

/-- No two documented opcode bytes select the same cell. -/
theorem documentedCells_nodup : documentedCells.Nodup := by
  decide +kernel

/-- Every cell of the mode table has an opcode byte. -/
theorem mem_documentedCells {m : Mnemonic} {k : Mode} (hk : k ∈ m.modes) : some (m, k) ∈ documentedCells := by
  have hall : ∀ m ∈ mnemonics, ∀ k ∈ m.modes, some (m, k) ∈ documentedCells := by decide +kernel
  exact hall m (mem_mnemonics m) k hk

theorem exists_opcodeCell_eq {m : Mnemonic} {k : Mode} (hk : k ∈ m.modes) : ∃ op, opcodeCell op = some (m, k) := by
  obtain ⟨n, -, hn⟩ := List.mem_map.mp (mem_documentedCells hk)
  exact ⟨_, hn⟩

theorem toNat_mem_documentedOpcodes {op : Byte} {c : Mnemonic × Mode} (h : opcodeCell op = some c) :
    op.toNat ∈ documentedOpcodes := by
  have hsome : (decodeOpcode op).isSome = true := by
    rw [← Option.isSome_map (f := Template.cell), ← opcodeCell, h, Option.isSome_some]
  rw [documentedOpcodes, List.mem_filter, List.mem_range, BitVec.ofNat_toNat, BitVec.setWidth_eq]
  exact ⟨op.isLt, hsome⟩

theorem opcodeCell_injective {op op' : Byte} {c : Mnemonic × Mode} (h : opcodeCell op = some c)
    (h' : opcodeCell op' = some c) : op = op' := by
  apply BitVec.eq_of_toNat_eq
  apply List.inj_on_of_nodup_map documentedCells_nodup (toNat_mem_documentedOpcodes h) (toNat_mem_documentedOpcodes h')
  simp only [BitVec.ofNat_toNat, BitVec.setWidth_eq, h, h']

/-- A byte that selects a cell is the opcode byte of exactly the instructions in that cell. -/
theorem opcodeOf_eq_iff_of_opcodeCell {op : Byte} {m : Mnemonic} {k : Mode} (h : opcodeCell op = some (m, k))
    (i : Instr) : opcodeOf i = op ↔ i.mnemonic = m ∧ i.mode = k := by
  constructor
  · rintro rfl
    simpa using h
  · rintro ⟨rfl, rfl⟩
    exact opcodeCell_injective (opcodeCell_opcodeOf i) h

theorem Mnemonic.modes_length_bounds (m : Mnemonic) : 1 ≤ m.modes.length ∧ m.modes.length ≤ 8 := by
  cases m <;> decide

theorem Mnemonic.modes_nodup (m : Mnemonic) : m.modes.Nodup := by
  cases m <;> decide

/-- Settles O3: the counts over the 256 bytes, and the cells of R120 against the opcode bytes, one to one. -/
theorem opcodeMapCounts : Obligations.OpcodeMapCounts := by
  refine ⟨documentedOpcodes_length, undocumentedOpcodes_length, fun m => ?modes, fun m k hk => ?opcode⟩
  case modes =>
    obtain ⟨hmin, hmax⟩ := m.modes_length_bounds
    exact ⟨hmin, hmax, m.modes_nodup⟩
  case opcode =>
    obtain ⟨op, hop⟩ := exists_opcodeCell_eq hk
    exact ⟨op, opcodeOf_eq_iff_of_opcodeCell hop⟩

end Sys2Proof
end

section
/-! PROOFS. The forms of a mnemonic (R118, R120): `HasForms` read off the opcode map. -/

namespace Sys2Proof

theorem Instr.mode_mem_modes (i : Instr) : i.mode ∈ i.mnemonic.modes := by
  obtain ⟨hmode, -⟩ := opcodeLookup i
  exact List.contains_iff_mem.mp hmode

theorem Template.exists_yields (t : Template) : ∃ i, t.Yields i := by
  cases t with
  | bare i => exact ⟨i, rfl⟩
  | withByte f => exact ⟨f 0, 0, rfl⟩
  | withWord f => exact ⟨f 0, 0, rfl⟩

/-- Every byte with a cell is the opcode byte of some instruction. -/
theorem exists_opcodeOf_eq {op : Byte} {c : Mnemonic × Mode} (h : opcodeCell op = some c) :
    ∃ i : Instr, opcodeOf i = op := by
  obtain ⟨t, ht, -⟩ := Option.map_eq_some_iff.mp h
  obtain ⟨i, hi⟩ := t.exists_yields
  exact ⟨i, (decodeOpcode_yields ht i hi).1⟩

/-- A mnemonic has the listed forms when they name all its modes and each opcode byte selects the cell of its form. -/
theorem hasForms_of_opcodeCell {m : Mnemonic} {forms : List (Mode × Byte)} (hmodes : m.modes = forms.map Prod.fst)
    (hcells : ∀ f ∈ forms, opcodeCell f.2 = some (m, f.1)) : Machine.HasForms m forms := by
  refine ⟨fun i => ⟨?listed, ?selected⟩, fun f hf => ?inhabited⟩
  case listed =>
    rintro rfl
    have hmode := i.mode_mem_modes
    rw [hmodes] at hmode
    obtain ⟨⟨k, op⟩, hf, hk : k = i.mode⟩ := List.mem_map.mp hmode
    subst hk
    have hop : opcodeOf i = op := (opcodeOf_eq_iff_of_opcodeCell (hcells _ hf) i).mpr ⟨rfl, rfl⟩
    rwa [hop]
  case selected =>
    intro hf
    exact ((opcodeOf_eq_iff_of_opcodeCell (hcells _ hf) i).mp rfl).1
  case inhabited =>
    obtain ⟨i, hi⟩ := exists_opcodeOf_eq (hcells f hf)
    obtain ⟨-, hmode⟩ := (opcodeOf_eq_iff_of_opcodeCell (hcells f hf) i).mp hi
    exact ⟨i, Prod.ext hmode hi⟩

end Sys2Proof
end

section
/-! PROOFS. Rules that the instructions with a data operand share: the frame of an operation that stores nothing, a
stored byte seen from before the reads, N and Z of a result (R28), and the cost of the read forms (R320, R321). -/

namespace Sys2Proof.Machine

/-- An operation without a store changes only what its reads use up and record. -/
theorem Effects.sameButReads {s t : State} (h : Effects [] s t) : SameButReads s t := by
  obtain ⟨hmem, hddr, hpor⟩ := h.none rfl
  have hsame := h.same
  unfold SameButStores at hsame
  rwa [hmem, hddr, hpor] at hsame

/-- Reads before a write do not change which byte it stores. -/
theorem StoredByte.after_reads {addr : Word} {v : Byte} {s t u : State} (h : SameButReads s t)
    (k : StoredByte addr v t u) : StoredByte addr v s u := by
  obtain ⟨hat, helse⟩ := k
  refine ⟨?_, fun a ha => (helse a ha).trans (h.byteAt_eq a)⟩
  rw [hat, h.stores_eq, h.byteAt_eq]

/-- The formulas of R28 say what `setNZ` computes. -/
theorem setNZ_eq_nzOf (p : Status) (v : Byte) : setNZ p v = nzOf p v := by
  have hn : v.msb = decide (128 ≤ v.toNat) := BitVec.msb_eq_decide v
  have hz : (v == 0) = decide (v.toNat = 0) := by
    rw [Bool.eq_iff_iff, beq_iff_eq, decide_eq_true_iff, BitVec.toNat_eq]
    rfl
  rw [setNZ, nzOf, hn, hz]

/-- The row of the cycle table for a read form. -/
def readCost : DataOperand → Cost
  | .imm _ => .exact 2
  | .mem (.zpg _) => .exact 3
  | .mem (.zpgX _) | .mem (.zpgY _) | .mem (.abs _) => .exact 4
  | .mem (.absX _) | .mem (.absY _) => .starred 4
  | .mem (.xInd _) => .exact 6
  | .mem (.indY _) => .starred 5

@[simp] theorem costCycles_readCost (d : DataOperand) (crossed : Bool) :
    costCycles (readCost d) crossed = readCycles d crossed := by
  rcases d with m | m
  · rfl
  · cases m <;> rfl

end Sys2Proof.Machine
end

section
/-! PROOFS. Loads and stores (R140 to R145). -/

namespace Sys2Proof.Machine

/-! ### Loads -/

theorem exec_of_lda {i : Instr} (h : i.mnemonic = .lda) :
    ∃ d, i.operand = .data d ∧ ∀ s, exec i s = .next (loadA d (readCost d) s) := by
  cases i <;> cases h
  all_goals exact ⟨_, rfl, fun _ => rfl⟩

theorem exec_of_ldx {i : Instr} (h : i.mnemonic = .ldx) :
    ∃ d, i.operand = .data d ∧ ∀ s, exec i s = .next (loadX d (readCost d) s) := by
  cases i <;> cases h
  all_goals exact ⟨_, rfl, fun _ => rfl⟩

theorem exec_of_ldy {i : Instr} (h : i.mnemonic = .ldy) :
    ∃ d, i.operand = .data d ∧ ∀ s, exec i s = .next (loadY d (readCost d) s) := by
  cases i <;> cases h
  all_goals exact ⟨_, rfl, fun _ => rfl⟩

section
variable (d : DataOperand) (s : State)

theorem loadA_effects :
    Effects [] (((s.setA (readData d s).val).setP (nzOf s.p (readData d s).val)).tick
      (readCycles d (readData d s).crossed)) (loadA d (readCost d) s) := by
  rw [← setNZ_eq_nzOf, ← costCycles_readCost]
  exact (((readData_effects d s).setA _).setP _).tick _

theorem loadX_effects :
    Effects [] (((s.setX (readData d s).val).setP (nzOf s.p (readData d s).val)).tick
      (readCycles d (readData d s).crossed)) (loadX d (readCost d) s) := by
  rw [← setNZ_eq_nzOf, ← costCycles_readCost]
  exact (((readData_effects d s).setX _).setP _).tick _

theorem loadY_effects :
    Effects [] (((s.setY (readData d s).val).setP (nzOf s.p (readData d s).val)).tick
      (readCycles d (readData d s).crossed)) (loadY d (readCost d) s) := by
  rw [← setNZ_eq_nzOf, ← costCycles_readCost]
  exact (((readData_effects d s).setY _).setP _).tick _

/-- A load makes the accesses of its operand and no other. -/
@[simp] theorem loadA_accesses : (loadA d (readCost d) s).accesses = (readData d s).st.accesses := rfl
@[simp] theorem loadX_accesses : (loadX d (readCost d) s).accesses = (readData d s).st.accesses := rfl
@[simp] theorem loadY_accesses : (loadY d (readCost d) s).accesses = (readData d s).st.accesses := rfl

end

/-- Settles O31: each form of a load runs `loadA`, `loadX` or `loadY` at the cost of its operand's mode, whose effects are
those of reading the operand but for the register, N and Z. -/
theorem loadsTakeTheOperand : Obligations.LoadsTakeTheOperand := by
  refine ⟨⟨hasForms_of_opcodeCell rfl (by decide), fun i s h => ?lda⟩,
    ⟨hasForms_of_opcodeCell rfl (by decide), fun i s h => ?ldx⟩,
    ⟨hasForms_of_opcodeCell rfl (by decide), fun i s h => ?ldy⟩⟩
  case lda =>
    obtain ⟨d, hd, hexec⟩ := exec_of_lda h
    exact ⟨d, _, hd, hexec s, (loadA_effects d s).sameButReads, loadA_accesses d s⟩
  case ldx =>
    obtain ⟨d, hd, hexec⟩ := exec_of_ldx h
    exact ⟨d, _, hd, hexec s, (loadX_effects d s).sameButReads, loadX_accesses d s⟩
  case ldy =>
    obtain ⟨d, hd, hexec⟩ := exec_of_ldy h
    exact ⟨d, _, hd, hexec s, (loadY_effects d s).sameButReads, loadY_accesses d s⟩

/-! ### Stores -/

theorem exec_of_sta {i : Instr} (h : i.mnemonic = .sta) :
    ∃ m, i.operand = .data (.mem m) ∧ ∀ s, exec i s = .next (storeReg s.a m (storeCycles m) s) := by
  cases i <;> cases h
  all_goals exact ⟨_, rfl, fun _ => rfl⟩

theorem exec_of_stx {i : Instr} (h : i.mnemonic = .stx) :
    ∃ m, i.operand = .data (.mem m) ∧ ∀ s, exec i s = .next (storeReg s.x m (storeCycles m) s) := by
  cases i <;> cases h
  all_goals exact ⟨_, rfl, fun _ => rfl⟩

theorem exec_of_sty {i : Instr} (h : i.mnemonic = .sty) :
    ∃ m, i.operand = .data (.mem m) ∧ ∀ s, exec i s = .next (storeReg s.y m (storeCycles m) s) := by
  cases i <;> cases h
  all_goals exact ⟨_, rfl, fun _ => rfl⟩

section
variable (v : Byte) (m : AddrMode) (n : Nat) (s : State)

theorem storeReg_effects : Effects [(resolve m s).addr] (s.tick n) (storeReg v m n s) :=
  ((resolve_effects m s).after_reads (memWrite_effects _ v _)).tick n

theorem storeReg_stored : StoredByte (resolve m s).addr v s (storeReg v m n s) :=
  (memWrite_stored (resolve m s).addr v (resolve m s).st).after_reads (resolve_same m s)

/-- A store reads at most the pointer of its mode, then writes once. -/
@[simp] theorem storeReg_accesses :
    (storeReg v m n s).accesses = (resolve m s).st.accesses ++ [⟨.write, (resolve m s).addr, v⟩] :=
  memWrite_accesses (resolve m s).addr v (resolve m s).st

end

/-- Settles O32: each form of a store runs `storeReg` on its register at the cost of its mode, which is `resolve`
followed by one `memWrite`. -/
theorem storesWriteTheRegister : Obligations.StoresWriteTheRegister := by
  refine ⟨⟨hasForms_of_opcodeCell rfl (by decide), fun i s h => ?sta⟩,
    ⟨hasForms_of_opcodeCell rfl (by decide), fun i s h => ?stx⟩,
    ⟨hasForms_of_opcodeCell rfl (by decide), fun i s h => ?sty⟩⟩
  case sta =>
    obtain ⟨m, hm, hexec⟩ := exec_of_sta h
    exact ⟨m, _, hm, hexec s, (storeReg_effects _ m _ s).same, storeReg_stored _ m _ s, storeReg_accesses _ m _ s⟩
  case stx =>
    obtain ⟨m, hm, hexec⟩ := exec_of_stx h
    exact ⟨m, _, hm, hexec s, (storeReg_effects _ m _ s).same, storeReg_stored _ m _ s, storeReg_accesses _ m _ s⟩
  case sty =>
    obtain ⟨m, hm, hexec⟩ := exec_of_sty h
    exact ⟨m, _, hm, hexec s, (storeReg_effects _ m _ s).same, storeReg_stored _ m _ s, storeReg_accesses _ m _ s⟩

end Sys2Proof.Machine
end

section
/-! PROOFS. Register transfers and the stack instructions on A (R150 to R156, R158). -/

namespace Sys2Proof.Machine

/-! ### Transfers -/

section
variable (v : Byte) (s : State)

theorem transferA_eq : transferA v s = { s with a := v, p := nzOf s.p v, cycles := s.cycles + 2 } := by
  rw [← setNZ_eq_nzOf]
  rfl

theorem transferX_eq : transferX v s = { s with x := v, p := nzOf s.p v, cycles := s.cycles + 2 } := by
  rw [← setNZ_eq_nzOf]
  rfl

theorem transferY_eq : transferY v s = { s with y := v, p := nzOf s.p v, cycles := s.cycles + 2 } := by
  rw [← setNZ_eq_nzOf]
  rfl

end

section
variable (s : State)

theorem exec_tax : exec .tax s = .next (transferX s.a s) := rfl
theorem exec_tay : exec .tay s = .next (transferY s.a s) := rfl
theorem exec_txa : exec .txa s = .next (transferA s.x s) := rfl
theorem exec_tya : exec .tya s = .next (transferA s.y s) := rfl
theorem exec_tsx : exec .tsx s = .next (transferX s.sp s) := rfl
theorem exec_txs : exec .txs s = .next ((s.setSp s.x).tick 2) := rfl

end

/-- Settles O33: five of the transfers run `transferA`, `transferX` or `transferY` on their source register, which set N
and Z from it; TXS sets SP alone. -/
theorem transfersCopyTheRegister : Obligations.TransfersCopyTheRegister := by
  refine ⟨⟨rfl, fun s => ?tax⟩, ⟨rfl, fun s => ?tay⟩, ⟨rfl, fun s => ?txa⟩, ⟨rfl, fun s => ?tya⟩, ⟨rfl, fun s => ?tsx⟩,
    ⟨rfl, fun s => ?txs⟩⟩
  case tax => rw [exec_tax, transferX_eq]
  case tay => rw [exec_tay, transferY_eq]
  case txa => rw [exec_txa, transferA_eq]
  case tya => rw [exec_tya, transferA_eq]
  case tsx => rw [exec_tsx, transferX_eq]
  case txs => exact exec_txs s

/-! ### Push and pull -/

section
variable (s : State)

/-- A push makes one write, at `$0100 + SP` (R24). -/
@[simp] theorem push_accesses (v : Byte) : (push v s).accesses = s.accesses ++ [⟨.write, stackAddr s.sp, v⟩] :=
  memWrite_accesses (stackAddr s.sp) v s

/-- A pull makes one read, at `$0100 + SP` of the SP it leaves (R24). -/
theorem pull_accesses : (pull s).2.accesses = s.accesses ++ [⟨.read, stackAddr (s.sp + 1), (pull s).1⟩] :=
  memRead_accesses (stackAddr (s.sp + 1)) (s.setSp (s.sp + 1))

theorem exec_pha : exec .pha s = .next ((push s.a s).tick 3) := rfl

theorem exec_pla :
    exec .pla s = .next ((((pull s).2.setA (pull s).1).setP (nzOf s.p (pull s).1)).tick 4) := by
  rw [← setNZ_eq_nzOf]
  rfl

end

/-- A pull from a plain location gives the byte stored there. -/
theorem pull_plain {s : State} (h : plainRead s (stackAddr (s.sp + 1)) = true) :
    (pull s).1 = byteAt s (stackAddr (s.sp + 1)) :=
  congrArg Prod.fst (memRead_plain (s := s.setSp (s.sp + 1)) h)

/-- Settles O24: PHA is a push of A and PLA a pull into A, whose effects on the state, the log and the stored bytes are
those of `push` and `pull`, but for A, N, Z and the time. -/
theorem phaPushesAndPlaPulls : Obligations.PhaPushesAndPlaPulls := by
  refine ⟨rfl, rfl, fun s => ?pha, fun s => ?pla⟩
  case pha => exact ⟨_, exec_pha s, ((push_effects s.a s).tick 3).same, push_stored s.a s, push_accesses s s.a⟩
  case pla =>
    have heffects := (((pull_effects s).setA (pull s).1).setP (nzOf s.p (pull s).1)).tick 4
    exact ⟨_, _, exec_pla s, heffects.sameButReads, pull_accesses s, pull_plain⟩

end Sys2Proof.Machine
end

section
/-! PROOFS. INC and DEC of memory and the counts of the index registers (R174 to R179). -/

namespace Sys2Proof.Machine

/-! ### One more and one less modulo 256 -/

theorem byte_add_one_toNat (v : Byte) : (v + 1).toNat = (v.toNat + 1) % 256 :=
  BitVec.toNat_add v 1

theorem byte_add_neg_one_toNat (v : Byte) : (v + -1).toNat = (v.toNat + 255) % 256 :=
  BitVec.toNat_add v (-1)

theorem byte_sub_one_toNat (v : Byte) : (v - 1).toNat = (v.toNat + 255) % 256 := by
  rw [BitVec.sub_eq_add_neg]
  exact byte_add_neg_one_toNat v

/-! ### INC and DEC -/

theorem exec_of_inc {i : Instr} (h : i.mnemonic = .inc) :
    ∃ m, i.operand = .data (.mem m) ∧ ∀ s, exec i s = .next (addToMem 1 m (modifyCycles m.mode) s) := by
  cases i <;> cases h
  all_goals exact ⟨_, rfl, fun _ => rfl⟩

theorem exec_of_dec {i : Instr} (h : i.mnemonic = .dec) :
    ∃ m, i.operand = .data (.mem m) ∧ ∀ s, exec i s = .next (addToMem (-1) m (modifyCycles m.mode) s) := by
  cases i <;> cases h
  all_goals exact ⟨_, rfl, fun _ => rfl⟩

/-- An operand in memory costs one read, after those of its pointer (R107). -/
theorem readData_mem_accesses (m : AddrMode) (s : State) :
    (readData (.mem m) s).st.accesses =
      (resolve m s).st.accesses ++ [⟨.read, (resolve m s).addr, (readData (.mem m) s).val⟩] :=
  memRead_accesses (resolve m s).addr (resolve m s).st

/-- One read of the effective address, then one write of `r` to it, then the flags and the time: the shape of every
read-modify-write (R68). -/
theorem modified_of_read_write (m : AddrMode) (r : Byte) (p : Status) (s : State) :
    Modified m (readData (.mem m) s).val r p s
      (((memWrite (resolve m s).addr r (readData (.mem m) s).st).setP p).tick (modifyCycles m.mode)) := by
  have hwrite := (readData_effects (.mem m) s).after_reads (memWrite_effects (resolve m s).addr r _)
  refine ⟨rfl, ((hwrite.setP p).tick _).same, ?stored, ?log⟩
  case stored => exact (memWrite_stored (resolve m s).addr r _).after_reads (readData_same (.mem m) s)
  case log =>
    rw [State.tick_accesses, State.setP_accesses, memWrite_accesses, readData_mem_accesses, List.append_assoc]
    rfl

theorem addToMem_modified (delta : Byte) (m : AddrMode) (s : State) :
    Modified m (readData (.mem m) s).val ((readData (.mem m) s).val + delta)
      (nzOf s.p ((readData (.mem m) s).val + delta)) s (addToMem delta m (modifyCycles m.mode) s) := by
  rw [← setNZ_eq_nzOf]
  exact modified_of_read_write m _ _ s

/-- Settles O40: each form of INC and of DEC runs `addToMem` with `1` or `-1` at the cost of its mode, which is a
read-modify-write of the byte at `resolve`'s address. -/
theorem incAndDecModifyMemory : Obligations.IncAndDecModifyMemory := by
  refine ⟨⟨hasForms_of_opcodeCell rfl (by decide), fun i s h => ?inc⟩,
    ⟨hasForms_of_opcodeCell rfl (by decide), fun i s h => ?dec⟩⟩
  case inc =>
    obtain ⟨m, hm, hexec⟩ := exec_of_inc h
    exact ⟨m, _, _, _, hm, hexec s, byte_add_one_toNat _, addToMem_modified 1 m s⟩
  case dec =>
    obtain ⟨m, hm, hexec⟩ := exec_of_dec h
    exact ⟨m, _, _, _, hm, hexec s, byte_add_neg_one_toNat _, addToMem_modified (-1) m s⟩

/-! ### The index registers -/

section
variable (s : State)

theorem countX_eq (v : Byte) : countX v s = { s with x := v, p := nzOf s.p v, cycles := s.cycles + 2 } := by
  rw [← setNZ_eq_nzOf]
  rfl

theorem countY_eq (v : Byte) : countY v s = { s with y := v, p := nzOf s.p v, cycles := s.cycles + 2 } := by
  rw [← setNZ_eq_nzOf]
  rfl

theorem exec_inx : exec .inx s = .next (countX (s.x + 1) s) := rfl
theorem exec_iny : exec .iny s = .next (countY (s.y + 1) s) := rfl
theorem exec_dex : exec .dex s = .next (countX (s.x - 1) s) := rfl
theorem exec_dey : exec .dey s = .next (countY (s.y - 1) s) := rfl

end

/-- Settles O41: each of the four runs `countX` or `countY` on its register plus or minus one, which sets N and Z from
the new value. -/
theorem indexRegistersCount : Obligations.IndexRegistersCount := by
  refine ⟨⟨rfl, fun s => ⟨s.x + 1, byte_add_one_toNat _, ?inx⟩⟩, ⟨rfl, fun s => ⟨s.y + 1, byte_add_one_toNat _, ?iny⟩⟩,
    ⟨rfl, fun s => ⟨s.x - 1, byte_sub_one_toNat _, ?dex⟩⟩, ⟨rfl, fun s => ⟨s.y - 1, byte_sub_one_toNat _, ?dey⟩⟩⟩
  case inx => rw [exec_inx, countX_eq]
  case iny => rw [exec_iny, countY_eq]
  case dex => rw [exec_dex, countX_eq]
  case dey => rw [exec_dey, countY_eq]

end Sys2Proof.Machine
end

section
/-! PROOFS. Logic on A and BIT (R190 to R193). -/

namespace Sys2Proof.Machine

/-! ### AND, ORA and EOR -/

theorem exec_of_and {i : Instr} (h : i.mnemonic = .and) :
    ∃ d, i.operand = .data d ∧ ∀ s, exec i s = .next (logicA (fun a m => a &&& m) d (readCost d) s) := by
  cases i <;> cases h
  all_goals exact ⟨_, rfl, fun _ => rfl⟩

theorem exec_of_ora {i : Instr} (h : i.mnemonic = .ora) :
    ∃ d, i.operand = .data d ∧ ∀ s, exec i s = .next (logicA (fun a m => a ||| m) d (readCost d) s) := by
  cases i <;> cases h
  all_goals exact ⟨_, rfl, fun _ => rfl⟩

theorem exec_of_eor {i : Instr} (h : i.mnemonic = .eor) :
    ∃ d, i.operand = .data d ∧ ∀ s, exec i s = .next (logicA (fun a m => a ^^^ m) d (readCost d) s) := by
  cases i <;> cases h
  all_goals exact ⟨_, rfl, fun _ => rfl⟩

section
variable (f : Byte → Byte → Byte) (d : DataOperand) (s : State)

theorem logicA_effects :
    Effects [] (((s.setA (f s.a (readData d s).val)).setP (nzOf s.p (f s.a (readData d s).val))).tick
      (readCycles d (readData d s).crossed)) (logicA f d (readCost d) s) := by
  rw [← setNZ_eq_nzOf, ← costCycles_readCost]
  exact (((readData_effects d s).setA _).setP _).tick _

/-- An operation on A makes the accesses of its operand and no other. -/
@[simp] theorem logicA_accesses : (logicA f d (readCost d) s).accesses = (readData d s).st.accesses := rfl

end

/-- Settles O42: each form of AND, ORA and EOR runs `logicA` on its bitwise operation at the cost of its operand's mode,
whose effects are those of reading the operand but for A, N and Z. -/
theorem logicIsBitwise : Obligations.LogicIsBitwise := by
  refine ⟨⟨hasForms_of_opcodeCell rfl (by decide), fun i s h => ?and⟩,
    ⟨hasForms_of_opcodeCell rfl (by decide), fun i s h => ?ora⟩,
    ⟨hasForms_of_opcodeCell rfl (by decide), fun i s h => ?eor⟩⟩
  case and =>
    obtain ⟨d, hd, hexec⟩ := exec_of_and h
    exact ⟨d, _, _, hd, hexec s, fun _ => BitVec.getLsbD_and, (logicA_effects _ d s).sameButReads,
      logicA_accesses _ d s⟩
  case ora =>
    obtain ⟨d, hd, hexec⟩ := exec_of_ora h
    exact ⟨d, _, _, hd, hexec s, fun _ => BitVec.getLsbD_or, (logicA_effects _ d s).sameButReads,
      logicA_accesses _ d s⟩
  case eor =>
    obtain ⟨d, hd, hexec⟩ := exec_of_eor h
    exact ⟨d, _, _, hd, hexec s, fun _ => BitVec.getLsbD_xor, (logicA_effects _ d s).sameButReads,
      logicA_accesses _ d s⟩

/-! ### BIT -/

theorem exec_of_bit {i : Instr} (h : i.mnemonic = .bit) :
    ∃ m, i.operand = .data (.mem m) ∧ ∀ s, exec i s = .next (bitTest m (readCycles (.mem m) false) s) := by
  cases i <;> cases h
  all_goals exact ⟨_, rfl, fun _ => rfl⟩

/-- The formulas of R193 say what `bitFlags` computes. -/
theorem bitFlags_eq (p : Status) (a v : Byte) :
    bitFlags p a v =
      { p with n := v.toNat.testBit 7, v := v.toNat.testBit 6, z := decide (a.toNat &&& v.toNat = 0) } := by
  have hz : ((a &&& v) == 0) = decide (a.toNat &&& v.toNat = 0) := by
    rw [Bool.eq_iff_iff, beq_iff_eq, decide_eq_true_iff, BitVec.toNat_eq, BitVec.toNat_and]
    rfl
  rw [bitFlags, hz]
  rfl

theorem bitTest_effects (m : AddrMode) (n : Nat) (s : State) :
    Effects [] ((s.setP (bitFlags s.p s.a (readData (.mem m) s).val)).tick n) (bitTest m n s) :=
  ((readData_effects (.mem m) s).setP _).tick n

/-- BIT reads at most the pointer of its mode, then the byte it tests. -/
@[simp] theorem bitTest_accesses (m : AddrMode) (n : Nat) (s : State) :
    (bitTest m n s).accesses =
      (resolve m s).st.accesses ++ [⟨.read, (resolve m s).addr, (readData (.mem m) s).val⟩] :=
  readData_mem_accesses m s

/-- Settles O43: both forms of BIT run `bitTest` at the cost of their mode, whose effects are those of one read but for
the flags. -/
theorem bitTestsMemory : Obligations.BitTestsMemory := by
  refine ⟨hasForms_of_opcodeCell rfl (by decide), fun i s h => ?_⟩
  obtain ⟨m, hm, hexec⟩ := exec_of_bit h
  have hsame := (bitTest_effects m (readCycles (.mem m) false) s).sameButReads
  rw [bitFlags_eq] at hsame
  exact ⟨m, _, _, hm, hexec s, rfl, hsame, bitTest_accesses m _ s⟩

end Sys2Proof.Machine
end

section
/-! PROOFS. Shifts and rotates (R194 to R197). -/

namespace Sys2Proof.Machine

/-! ### The result byte and the carry -/

theorem byte_shiftLeft_one_toNat (v : Byte) : (v <<< 1).toNat = v.toNat * 2 % 256 := by
  rw [BitVec.toNat_shiftLeft, Nat.shiftLeft_eq]

theorem byte_ushiftRight_one_toNat (v : Byte) : (v >>> 1).toNat = v.toNat / 2 := by
  rw [BitVec.toNat_ushiftRight, Nat.shiftRight_eq_div_pow]

/-- A bit entering below a byte shifted left adds to it. -/
theorem byte_shiftLeft_one_or_toNat (v : Byte) (c : Bool) :
    (v <<< 1 ||| BitVec.ofNat 8 c.toNat).toNat = v.toNat * 2 % 256 + c.toNat := by
  have hc : c.toNat < 2 ^ 1 := c.toNat_lt
  have hbit : (BitVec.ofNat 8 c.toNat).toNat = c.toNat := by cases c <;> rfl
  have hmod : v.toNat * 2 % 256 = (v.toNat % 128) <<< 1 := by omega
  rw [BitVec.toNat_or, byte_shiftLeft_one_toNat, hbit, hmod, Nat.shiftLeft_add_eq_or_of_lt hc]

/-- A bit entering above a byte shifted right adds to it. -/
theorem byte_ushiftRight_one_or_toNat (v : Byte) (c : Bool) :
    (v >>> 1 ||| BitVec.ofNat 8 (c.toNat * 128)).toNat = v.toNat / 2 + c.toNat * 128 := by
  have hv : v.toNat / 2 < 2 ^ 7 := by omega
  have hbit : (BitVec.ofNat 8 (c.toNat * 128)).toNat = c.toNat <<< 7 := by cases c <;> rfl
  rw [BitVec.toNat_or, byte_ushiftRight_one_toNat, hbit, Nat.or_comm, ← Nat.shiftLeft_add_eq_or_of_lt hv,
    Nat.shiftLeft_eq, Nat.add_comm]

/-- Bit 0 of a byte says that it is odd. -/
theorem byte_getLsbD_zero (v : Byte) : v.getLsbD 0 = decide (v.toNat % 2 = 1) :=
  Nat.testBit_zero v.toNat

/-- `f` computes the result byte and the carry that the rule of the mnemonic gives (R194 to R197). -/
def FollowsShiftRule (m : Mnemonic) (f : Byte → Bool → Byte × Bool) : Prop :=
  ∀ v c, (f v c).1.toNat = (shiftResult m v.toNat c).1 ∧ (f v c).2 = (shiftResult m v.toNat c).2

theorem shiftLeft_followsShiftRule : FollowsShiftRule .asl shiftLeft :=
  fun v _ => ⟨byte_shiftLeft_one_toNat v, BitVec.msb_eq_decide v⟩

theorem shiftRight_followsShiftRule : FollowsShiftRule .lsr shiftRight :=
  fun v _ => ⟨byte_ushiftRight_one_toNat v, byte_getLsbD_zero v⟩

theorem rotateLeft_followsShiftRule : FollowsShiftRule .rol rotateLeft :=
  fun v c => ⟨byte_shiftLeft_one_or_toNat v c, BitVec.msb_eq_decide v⟩

theorem rotateRight_followsShiftRule : FollowsShiftRule .ror rotateRight :=
  fun v c => ⟨byte_ushiftRight_one_or_toNat v c, byte_getLsbD_zero v⟩

/-- The formulas of R28 and the carry of the rule say what `shiftFlags` computes. -/
theorem FollowsShiftRule.shiftFlags_eq {m : Mnemonic} {f : Byte → Bool → Byte × Bool} (h : FollowsShiftRule m f)
    (p : Status) (v : Byte) (c : Bool) :
    shiftFlags p (f v c) = { nzOf p (f v c).1 with c := (shiftResult m v.toNat c).2 } := by
  obtain ⟨-, hcarry⟩ := h v c
  rw [shiftFlags, setNZ_eq_nzOf, hcarry]

/-! ### The forms -/

/-- The instruction applies `f` to A, or to the byte at its effective address, at the cost of its mode. -/
def RunsShift (f : Byte → Bool → Byte × Bool) (i : Instr) : Prop :=
  (i.operand = .accumulator ∧ ∀ s, exec i s = .next (shiftA f s)) ∨
    ∃ m, i.operand = .data (.mem m) ∧ ∀ s, exec i s = .next (shiftMem f m (modifyCycles m.mode) s)

theorem runsShift_of_asl {i : Instr} (h : i.mnemonic = .asl) : RunsShift shiftLeft i := by
  cases i <;> cases h
  case aslA => exact .inl ⟨rfl, fun _ => rfl⟩
  all_goals exact .inr ⟨_, rfl, fun _ => rfl⟩

theorem runsShift_of_lsr {i : Instr} (h : i.mnemonic = .lsr) : RunsShift shiftRight i := by
  cases i <;> cases h
  case lsrA => exact .inl ⟨rfl, fun _ => rfl⟩
  all_goals exact .inr ⟨_, rfl, fun _ => rfl⟩

theorem runsShift_of_rol {i : Instr} (h : i.mnemonic = .rol) : RunsShift rotateLeft i := by
  cases i <;> cases h
  case rolA => exact .inl ⟨rfl, fun _ => rfl⟩
  all_goals exact .inr ⟨_, rfl, fun _ => rfl⟩

theorem runsShift_of_ror {i : Instr} (h : i.mnemonic = .ror) : RunsShift rotateRight i := by
  cases i <;> cases h
  case rorA => exact .inl ⟨rfl, fun _ => rfl⟩
  all_goals exact .inr ⟨_, rfl, fun _ => rfl⟩

/-- Every shift and rotate runs the operation of its rule. -/
theorem exists_runsShift {i : Instr} (h : i.mnemonic ∈ [Mnemonic.asl, .lsr, .rol, .ror]) :
    ∃ f, FollowsShiftRule i.mnemonic f ∧ RunsShift f i := by
  simp only [List.mem_cons, List.not_mem_nil, or_false] at h
  obtain hm | hm | hm | hm := h
  · exact ⟨_, hm ▸ shiftLeft_followsShiftRule, runsShift_of_asl hm⟩
  · exact ⟨_, hm ▸ shiftRight_followsShiftRule, runsShift_of_lsr hm⟩
  · exact ⟨_, hm ▸ rotateLeft_followsShiftRule, runsShift_of_rol hm⟩
  · exact ⟨_, hm ▸ rotateRight_followsShiftRule, runsShift_of_ror hm⟩

section
variable {k : Mnemonic} {f : Byte → Bool → Byte × Bool}

theorem FollowsShiftRule.shiftA_eq (h : FollowsShiftRule k f) (s : State) :
    shiftA f s = { s with
      a := (f s.a s.p.c).1
      p := { nzOf s.p (f s.a s.p.c).1 with c := (shiftResult k s.a.toNat s.p.c).2 }
      cycles := s.cycles + 2 } := by
  rw [← h.shiftFlags_eq]
  rfl

theorem FollowsShiftRule.shiftMem_modified (h : FollowsShiftRule k f) (m : AddrMode) (s : State) :
    Modified m (readData (.mem m) s).val (f (readData (.mem m) s).val s.p.c).1
      { nzOf s.p (f (readData (.mem m) s).val s.p.c).1 with
        c := (shiftResult k (readData (.mem m) s).val.toNat s.p.c).2 }
      s (shiftMem f m (modifyCycles m.mode) s) := by
  rw [← h.shiftFlags_eq]
  exact modified_of_read_write m _ _ s

end

/-- Settles O44: each form runs `shiftA`, or `shiftMem` at the cost of its mode, on an operation that follows the rule
of its mnemonic; the latter is a read-modify-write of the byte at `resolve`'s address. -/
theorem shiftsAndRotates : Obligations.ShiftsAndRotates := by
  refine ⟨hasForms_of_opcodeCell rfl (by decide), hasForms_of_opcodeCell rfl (by decide),
    hasForms_of_opcodeCell rfl (by decide), hasForms_of_opcodeCell rfl (by decide), fun i s h => ?_⟩
  obtain ⟨f, hrule, ⟨hop, hexec⟩ | ⟨m, hop, hexec⟩⟩ := exists_runsShift h
  case inl =>
    obtain ⟨hval, -⟩ := hrule s.a s.p.c
    exact .inl ⟨hop, _, hval, by rw [hexec, hrule.shiftA_eq]⟩
  case inr =>
    obtain ⟨hval, -⟩ := hrule (readData (.mem m) s).val s.p.c
    exact .inr ⟨m, _, _, _, hop, hexec s, hval, hrule.shiftMem_modified m s⟩

end Sys2Proof.Machine
end

section
/-! PROOFS. Compares of a register with the operand (R210 to R212). -/

namespace Sys2Proof.Machine

/-! ### N, Z and C of a compare -/

/-- The formula of R210 for R, the difference modulo 256 that N is taken from. -/
theorem byte_sub_toNat (reg m : Byte) : (reg - m).toNat = (reg.toNat + 256 - m.toNat) % 256 := by
  have hm : m.toNat < 256 := m.isLt
  rw [BitVec.toNat_sub]
  omega

/-- The formulas of R210 say what `compareFlags` computes. -/
theorem compareFlags_eq (p : Status) (reg m : Byte) :
    compareFlags p reg m =
      { p with
        c := decide (m.toNat ≤ reg.toNat), z := decide (m = reg)
        n := decide (128 ≤ (reg.toNat + 256 - m.toNat) % 256) } := by
  have hn : (reg - m).msb = decide (128 ≤ (reg.toNat + 256 - m.toNat) % 256) := by
    rw [← byte_sub_toNat]
    exact BitVec.msb_eq_decide (reg - m)
  have hz : (reg == m) = decide (m = reg) := by
    rw [Bool.eq_iff_iff, beq_iff_eq, decide_eq_true_iff, eq_comm]
  rw [compareFlags, hn, hz]

/-! ### The forms -/

theorem exec_of_cmp {i : Instr} (h : i.mnemonic = .cmp) :
    ∃ d, i.operand = .data d ∧ ∀ s, exec i s = .next (compareReg s.a d (readCost d) s) := by
  cases i <;> cases h
  all_goals exact ⟨_, rfl, fun _ => rfl⟩

theorem exec_of_cpx {i : Instr} (h : i.mnemonic = .cpx) :
    ∃ d, i.operand = .data d ∧ ∀ s, exec i s = .next (compareReg s.x d (readCost d) s) := by
  cases i <;> cases h
  all_goals exact ⟨_, rfl, fun _ => rfl⟩

theorem exec_of_cpy {i : Instr} (h : i.mnemonic = .cpy) :
    ∃ d, i.operand = .data d ∧ ∀ s, exec i s = .next (compareReg s.y d (readCost d) s) := by
  cases i <;> cases h
  all_goals exact ⟨_, rfl, fun _ => rfl⟩

section
variable (reg : Byte) (d : DataOperand) (s : State)

theorem compareReg_effects :
    Effects [] ((s.setP (compareFlags s.p reg (readData d s).val)).tick (readCycles d (readData d s).crossed))
      (compareReg reg d (readCost d) s) := by
  rw [← costCycles_readCost]
  exact ((readData_effects d s).setP _).tick _

/-- A compare leaves what reading its operand leaves, but for N, Z, C and the time. -/
theorem compareReg_same :
    SameButReads
      { s with
        p := { s.p with
          c := decide ((readData d s).val.toNat ≤ reg.toNat), z := decide ((readData d s).val = reg)
          n := decide (128 ≤ (reg.toNat + 256 - (readData d s).val.toNat) % 256) }
        cycles := s.cycles + readCycles d (readData d s).crossed } (compareReg reg d (readCost d) s) := by
  rw [← compareFlags_eq]
  exact (compareReg_effects reg d s).sameButReads

/-- A compare makes the accesses of its operand and no other. -/
@[simp] theorem compareReg_accesses : (compareReg reg d (readCost d) s).accesses = (readData d s).st.accesses := rfl

end

/-- Settles O46: each form of CMP, CPX and CPY runs `compareReg` on its register at the cost of its operand's mode,
whose effects are those of reading the operand but for N, Z and C. -/
theorem comparesSetFlagsOnly : Obligations.ComparesSetFlagsOnly := by
  refine ⟨⟨hasForms_of_opcodeCell rfl (by decide), fun i s h => ?cmp⟩,
    ⟨hasForms_of_opcodeCell rfl (by decide), fun i s h => ?cpx⟩,
    ⟨hasForms_of_opcodeCell rfl (by decide), fun i s h => ?cpy⟩⟩
  case cmp =>
    obtain ⟨d, hd, hexec⟩ := exec_of_cmp h
    exact ⟨d, _, hd, hexec s, compareReg_same s.a d s, compareReg_accesses s.a d s⟩
  case cpx =>
    obtain ⟨d, hd, hexec⟩ := exec_of_cpx h
    exact ⟨d, _, hd, hexec s, compareReg_same s.x d s, compareReg_accesses s.x d s⟩
  case cpy =>
    obtain ⟨d, hd, hexec⟩ := exec_of_cpy h
    exact ⟨d, _, hd, hexec s, compareReg_same s.y d s, compareReg_accesses s.y d s⟩

end Sys2Proof.Machine
end

section
/-! PROOFS. JMP and RTS (R230, R232): the word pulled from the stack and the word a pointer gives (R117). -/

namespace Sys2Proof.Machine

/-! ### Pulling PC -/

section
variable (s : State)

/-- Pulling PC makes two reads above SP, the low byte's first (R67). -/
theorem pullPc_accesses :
    (pullPc s).2.accesses = s.accesses ++ [⟨.read, stackAddr (s.sp + 1), lowByte (pullPc s).1⟩,
      ⟨.read, stackAddr (s.sp + 2), highByte (pullPc s).1⟩] := by
  have hsp : s.sp + 1 + 1 = s.sp + 2 := BitVec.add_assoc _ _ _
  have hhigh := pull_accesses (pull s).2
  rw [pull_accesses s, pull_sp, hsp] at hhigh
  simpa [pullPc] using hhigh

theorem exec_rts : exec .rts s = .next (((pullPc s).2.setPc ((pullPc s).1 + 1)).tick 6) := rfl

end

/-- PC pulled from plain locations is the word stored there. -/
theorem pullPc_plain {s : State} (hlow : plainRead s (stackAddr (s.sp + 1)) = true)
    (hhigh : plainRead s (stackAddr (s.sp + 2)) = true) :
    (pullPc s).1 = mkWord (byteAt s (stackAddr (s.sp + 2))) (byteAt s (stackAddr (s.sp + 1))) := by
  have hsp : (pull s).2.sp + 1 = s.sp + 2 := by
    rw [pull_sp]
    exact BitVec.add_assoc _ _ _
  have hafter : plainRead (pull s).2 (stackAddr ((pull s).2.sp + 1)) = true := by
    rw [hsp, (pull_same s).plainRead_eq]
    exact hhigh
  have hbyte : byteAt (pull s).2 (stackAddr (s.sp + 2)) = byteAt s (stackAddr (s.sp + 2)) :=
    (pull_same s).byteAt_eq _
  calc (pullPc s).1 = mkWord (pull (pull s).2).1 (pull s).1 := rfl
    _ = _ := by rw [pull_plain hlow, pull_plain hafter, hsp, hbyte]

/-- Settles O29: RTS pulls PC and adds 1, so its effects, its accesses and the word are those of `pullPc`, read back from
the new PC. -/
theorem rtsReturnsPastTheAddress : Obligations.RtsReturnsPastTheAddress := by
  refine ⟨rfl, fun s => ⟨_, exec_rts s, ?frame, ?log, fun hlow hhigh => ?word⟩⟩
  case frame => exact (((pullPc_effects s).setPc ((pullPc s).1 + 1)).tick 6).sameButReads
  case log =>
    have hpulled : (pullPc s).1 + 1 - 1 = (pullPc s).1 := BitVec.add_sub_cancel _ _
    simpa [hpulled] using pullPc_accesses s
  case word => exact congrArg (· + 1) (pullPc_plain hlow hhigh)

/-! ### The pointer of JMP indirect -/

/-- The mode Absolute Indirect is JMP's alone (R117). -/
theorem mnemonic_eq_jmp_of_absoluteIndirect {i : Instr} (h : i.mode = .absoluteIndirect) : i.mnemonic = .jmp := by
  have honly : ∀ m : Mnemonic, Mode.absoluteIndirect ∈ m.modes → m = .jmp := by
    intro m
    cases m <;> decide
  exact honly _ (h ▸ i.mode_mem_modes)

/-- Incrementing only the low byte of an address stays in its page: from its last byte it goes to its first (R117). -/
theorem mkWord_highByte_lowByte_add_one (w : Word) :
    mkWord (highByte w) (lowByte w + 1) = if w.toNat % 256 = 255 then w - 255 else w + 1 := by
  apply BitVec.eq_of_toNat_eq
  rw [mkWord_toNat, highByte_toNat, byte_add_one_toNat, lowByte_toNat]
  split <;> bv_omega

section
variable (w : Word) (s : State)

/-- The word a pointer gives takes two reads, the low byte's first, the high byte's in the same page (R117, R69). -/
theorem readJumpPointer_accesses :
    (readJumpPointer w s).2.accesses = s.accesses ++ [⟨.read, w, lowByte (readJumpPointer w s).1⟩,
      ⟨.read, if w.toNat % 256 = 255 then w - 255 else w + 1, highByte (readJumpPointer w s).1⟩] := by
  have hhigh := memRead_accesses (mkWord (highByte w) (lowByte w + 1)) (memRead w s).2
  rw [memRead_accesses w s] at hhigh
  rw [← mkWord_highByte_lowByte_add_one]
  simpa [readJumpPointer] using hhigh

theorem exec_jmpAbs : exec (.jmpAbs w) s = .next { s with pc := w, cycles := s.cycles + 3 } := rfl

theorem exec_jmpInd :
    exec (.jmpInd w) s = .next (((readJumpPointer w s).2.setPc (readJumpPointer w s).1).tick 5) := rfl

end

/-- A pointer whose two bytes lie in plain locations gives the word stored there. -/
theorem readJumpPointer_plain {w : Word} {s : State} (hlow : plainRead s w = true)
    (hhigh : plainRead s (if w.toNat % 256 = 255 then w - 255 else w + 1) = true) :
    (readJumpPointer w s).1 =
      mkWord (byteAt s (if w.toNat % 256 = 255 then w - 255 else w + 1)) (byteAt s w) := by
  rw [← mkWord_highByte_lowByte_add_one] at hhigh ⊢
  have hlowRead : SameButReads s (memRead w s).2 := memRead_same w s
  have hafter : plainRead (memRead w s).2 (mkWord (highByte w) (lowByte w + 1)) = true :=
    (hlowRead.plainRead_eq _).trans hhigh
  calc (readJumpPointer w s).1
      = mkWord (memRead (mkWord (highByte w) (lowByte w + 1)) (memRead w s).2).1 (memRead w s).1 := rfl
    _ = _ := by rw [memRead_plain hafter, hlowRead.byteAt_eq, memRead_plain hlow]

/-- Settles O49: JMP absolute loads its operand; JMP indirect loads what `readJumpPointer` gives, whose effects and
accesses are its own. -/
theorem jumpsSetPc : Obligations.JumpsSetPc := by
  refine ⟨fun w => ⟨rfl, rfl⟩, hasForms_of_opcodeCell rfl (by decide), fun i => mnemonic_eq_jmp_of_absoluteIndirect,
    exec_jmpAbs, fun w s => ⟨_, exec_jmpInd w s, ?frame, ?log, fun hlow hhigh => ?word⟩⟩
  case frame => exact (((readJumpPointer_effects w s).setPc (readJumpPointer w s).1).tick 5).sameButReads
  case log => exact readJumpPointer_accesses w s
  case word => exact readJumpPointer_plain hlow hhigh

end Sys2Proof.Machine
end

section
/-! PROOFS. BRK and RTI (R247, R249): the frame an exception pushes, its vector, and what the return pulls. -/

namespace Sys2Proof.Machine

/-! ### The pushed frame -/

/-- Pushing PC makes two writes, the high byte's first (R67). -/
@[simp] theorem pushPc_accesses (ret : Word) (s : State) :
    (pushPc ret s).accesses =
      s.accesses ++ [⟨.write, stackAddr s.sp, highByte ret⟩, ⟨.write, stackAddr (s.sp - 1), lowByte ret⟩] := by
  simp [pushPc]

@[simp] theorem pushPc_sp (ret : Word) (s : State) : (pushPc ret s).sp = s.sp - 2 :=
  (pushPc_same ret s).sp_eq

theorem pushPc_stackIsRam {s : State} (h : StackIsRam s) (ret : Word) : StackIsRam (pushPc ret s) :=
  push_stackIsRam (push_stackIsRam h _) _

/-- On a stack in RAM, PCH is stored at SP and PCL one below (R67). -/
theorem pushPc_byteAt {s : State} (h : StackIsRam s) (ret a : Word) :
    byteAt (pushPc ret s) a =
      if a = stackAddr (s.sp - 1) then lowByte ret else if a = stackAddr s.sp then highByte ret else byteAt s a := by
  rw [pushPc, push_byteAt (push_stackIsRam h _), push_byteAt h, push_sp]

/-- The three addresses of a frame are distinct, also where SP wraps (R24). -/
theorem stackAddr_frame_ne (sp : Byte) :
    stackAddr sp ≠ stackAddr (sp - 1) ∧ stackAddr sp ≠ stackAddr (sp - 2) ∧
      stackAddr (sp - 1) ≠ stackAddr (sp - 2) := by
  refine ⟨fun h => ?_, fun h => ?_, fun h => ?_⟩
  all_goals
    have heq := stackAddr_injective h
    bv_omega

/-- Pushing PC and then a status byte leaves the frame of an exception (R277). -/
theorem push_pushPc_pushedFrame (ret : Word) (status : Byte) (s : State) :
    PushedFrame ret status s (push status (pushPc ret s)) := by
  constructor
  case left =>
    have hstatus := push_effects status (pushPc ret s)
    rw [pushPc_sp] at hstatus
    exact (((pushPc_effects ret s).setSp (s.sp - 2 - 1)).trans hstatus).bytes
  case right =>
    intro hram
    obtain ⟨hne01, hne02, hne12⟩ := stackAddr_frame_ne s.sp
    have hbyte (a : Word) := push_byteAt (pushPc_stackIsRam hram ret) status a
    simp only [pushPc_sp, pushPc_byteAt hram] at hbyte
    exact ⟨by rw [hbyte, if_neg hne02, if_neg hne01, if_pos rfl], by rw [hbyte, if_neg hne12, if_pos rfl],
      by rw [hbyte, if_pos rfl]⟩

/-- What changes no byte leaves a pushed frame as it is. -/
theorem PushedFrame.then_sameBytes {ret : Word} {status : Byte} {s t u : State} (h : PushedFrame ret status s t)
    (k : SameBytes t u) : PushedFrame ret status s u := by
  obtain ⟨helse, hframe⟩ := h
  refine ⟨fun a ha => (k a).trans (helse a ha), fun hram => ?_⟩
  rw [k, k, k]
  exact hframe hram

/-! ### The vector -/

/-- Reading a word makes two reads, the low byte's first (R8, R69). -/
theorem read16_accesses (addr : Word) (s : State) :
    (read16 addr s).2.accesses = s.accesses ++ [⟨.read, addr, lowByte (read16 addr s).1⟩,
      ⟨.read, addr + 1, highByte (read16 addr s).1⟩] := by
  have hhigh := memRead_accesses (addr + 1) (memRead addr s).2
  rw [memRead_accesses addr s] at hhigh
  simpa [read16] using hhigh

/-- A word read from plain locations is the word stored there. -/
theorem read16_plain {addr : Word} {s : State} (hlow : plainRead s addr = true)
    (hhigh : plainRead s (addr + 1) = true) :
    (read16 addr s).1 = mkWord (byteAt s (addr + 1)) (byteAt s addr) := by
  have hlowRead : SameButReads s (memRead addr s).2 := memRead_same addr s
  have hafter : plainRead (memRead addr s).2 (addr + 1) = true := (hlowRead.plainRead_eq _).trans hhigh
  calc (read16 addr s).1 = mkWord (memRead (addr + 1) (memRead addr s).2).1 (memRead addr s).1 := rfl
    _ = _ := by rw [memRead_plain hafter, hlowRead.byteAt_eq, memRead_plain hlow]

/-- Whether a read is plain depends on the map of the bus alone. -/
theorem plainRead_eq_of_busMap_eq {s t : State} (h : t.busMap = s.busMap) (a : Word) :
    plainRead t a = plainRead s a := by
  rw [plainRead, plainRead, busKind, busKind, h]

/-! ### Taking an exception -/

section
variable (vector : Word) (brk setsI : Bool) (s : State)

/-- What an exception reads its vector from: the frame pushed and I raised, if the event raises it (R277). -/
def exceptionPushed : State :=
  (push (statusByte s.p brk) (pushPc s.pc s)).setP { s.p with i := s.p.i || setsI }

theorem takeException_eq :
    takeException vector brk setsI s =
      ((read16 vector (exceptionPushed brk setsI s)).2.setPc (read16 vector (exceptionPushed brk setsI s)).1).tick 7 :=
  rfl

theorem exceptionPushed_pushedFrame :
    PushedFrame s.pc (statusByte s.p brk) s (exceptionPushed brk setsI s) :=
  (push_pushPc_pushedFrame s.pc (statusByte s.p brk) s).then_sameBytes fun _ => rfl

theorem exceptionPushed_busMap : (exceptionPushed brk setsI s).busMap = s.busMap :=
  (push_same (statusByte s.p brk) (pushPc s.pc s)).busMap_eq.trans (pushPc_same s.pc s).busMap_eq

theorem exceptionPushed_plainRead (a : Word) : plainRead (exceptionPushed brk setsI s) a = plainRead s a :=
  plainRead_eq_of_busMap_eq (exceptionPushed_busMap brk setsI s) a

/-- The three pushes, then the two reads of the vector (R69, R277). -/
theorem takeException_accesses :
    (takeException vector brk setsI s).accesses =
      s.accesses ++ frameLog s.pc (statusByte s.p brk) vector s (takeException vector brk setsI s) := by
  have hread := read16_accesses vector (exceptionPushed brk setsI s)
  simpa [takeException_eq, exceptionPushed, frameLog] using hread

theorem takeException_pushedFrame :
    PushedFrame s.pc (statusByte s.p brk) s (takeException vector brk setsI s) :=
  (exceptionPushed_pushedFrame brk setsI s).then_sameBytes (read16_same vector _).sameBytes

end

/-- An address above the stack page is none of its addresses (R23). -/
theorem ne_stackAddr_of_le {a : Word} (h : 512 ≤ a.toNat) (sp : Byte) : a ≠ stackAddr sp := by
  rintro rfl
  have := sp.isLt
  rw [stackAddr_toNat] at h
  omega

theorem not_mem_frame {a : Word} (h : ∀ sp, a ≠ stackAddr sp) (x y z : Byte) :
    a ∉ [stackAddr x, stackAddr y, stackAddr z] := by
  simp [h]

/-- A vector outside the stack page is read as it stood before the pushes. -/
theorem takeException_pcFromVector {vector : Word} (hvector : ∀ sp, vector ≠ stackAddr sp)
    (hnext : ∀ sp, vector + 1 ≠ stackAddr sp) (brk setsI : Bool) (s : State) :
    PcFromVector vector s (takeException vector brk setsI s) := by
  intro hlow hhigh
  obtain ⟨helse, -⟩ := exceptionPushed_pushedFrame brk setsI s
  rw [← exceptionPushed_plainRead brk setsI s] at hlow hhigh
  calc (takeException vector brk setsI s).pc = (read16 vector (exceptionPushed brk setsI s)).1 := rfl
    _ = _ := by rw [read16_plain hlow hhigh, helse _ (not_mem_frame hnext _ _ _), helse _ (not_mem_frame hvector _ _ _)]

theorem exec_brk (s : State) : exec .brk s = .next (takeException irqVector true true (s.setPc (s.pc + 1))) := rfl

/-- Settles O20: BRK is an exception through the IRQ vector, taken with PC moved one past the byte after the opcode; its
frame, accesses and target are those of `takeException`, and the vector is not in the stack page. -/
theorem brkTakesItsException : Obligations.BrkTakesItsException := by
  refine ⟨rfl, fun s => ⟨_, exec_brk s, ?frame, ?log, ?pushed, ?vector⟩⟩
  case frame =>
    have hsame := takeException_same irqVector true true (s.setPc (s.pc + 1))
    rwa [Bool.or_true] at hsame
  case log => exact takeException_accesses irqVector true true (s.setPc (s.pc + 1))
  case pushed => exact takeException_pushedFrame irqVector true true (s.setPc (s.pc + 1))
  case vector =>
    exact takeException_pcFromVector (ne_stackAddr_of_le (by decide)) (ne_stackAddr_of_le (by decide)) true true
      (s.setPc (s.pc + 1))

/-! ### Returning from an exception -/

section
variable (s : State)

/-- The state a return pulls PC from: the flags are pulled and set (R249). -/
def flagsPulled : State :=
  (pull s).2.setP (statusOfByte (pull s).1)

theorem returnFromException_eq :
    returnFromException s = ((pullPc (flagsPulled s)).2.setPc (pullPc (flagsPulled s)).1).tick 6 := rfl

theorem flagsPulled_sp_add_one : (flagsPulled s).sp + 1 = s.sp + 2 := by
  rw [flagsPulled, State.setP_sp, pull_sp]
  exact BitVec.add_assoc _ _ _

theorem flagsPulled_sp_add_two : (flagsPulled s).sp + 2 = s.sp + 3 := by
  rw [flagsPulled, State.setP_sp, pull_sp]
  exact BitVec.add_assoc _ _ _

theorem flagsPulled_byteAt (a : Word) : byteAt (flagsPulled s) a = byteAt s a :=
  (pull_same s).byteAt_eq a

theorem flagsPulled_plainRead (a : Word) : plainRead (flagsPulled s) a = plainRead s a :=
  (pull_same s).plainRead_eq a

/-- Three reads above SP: P, then PC, the low byte's first (R67, R249). -/
theorem returnFromException_accesses :
    (returnFromException s).accesses = s.accesses ++ [⟨.read, stackAddr (s.sp + 1), (pull s).1⟩,
      ⟨.read, stackAddr (s.sp + 2), lowByte (returnFromException s).pc⟩,
      ⟨.read, stackAddr (s.sp + 3), highByte (returnFromException s).pc⟩] := by
  have hpulled : (flagsPulled s).accesses = s.accesses ++ [⟨.read, stackAddr (s.sp + 1), (pull s).1⟩] :=
    pull_accesses s
  have hpc := pullPc_accesses (flagsPulled s)
  rw [flagsPulled_sp_add_one, flagsPulled_sp_add_two, hpulled] at hpc
  simpa [returnFromException_eq] using hpc

/-- A return from plain locations continues at the word stored above P, with no increment. -/
theorem returnFromException_pc_plain (hlow : plainRead s (stackAddr (s.sp + 2)) = true)
    (hhigh : plainRead s (stackAddr (s.sp + 3)) = true) :
    (returnFromException s).pc = mkWord (byteAt s (stackAddr (s.sp + 3))) (byteAt s (stackAddr (s.sp + 2))) := by
  rw [← flagsPulled_sp_add_one, ← flagsPulled_plainRead] at hlow
  rw [← flagsPulled_sp_add_two, ← flagsPulled_plainRead] at hhigh
  calc (returnFromException s).pc = (pullPc (flagsPulled s)).1 := rfl
    _ = _ := by
      rw [pullPc_plain hlow hhigh, flagsPulled_byteAt, flagsPulled_byteAt, flagsPulled_sp_add_one,
        flagsPulled_sp_add_two]

theorem exec_rti : exec .rti s = .next (returnFromException s) := rfl

theorem exec_plp :
    exec .plp s = .next ((((pull s).2.setP (statusOfByte (pull s).1)).setIDelayed (some s.p.i)).tick 4) := rfl

end

/-- Settles O21: RTI is `returnFromException`, whose effects, accesses and word are those of a pull of P and a pull of
PC; PLP sets the flags of the same byte. -/
theorem rtiReturns : Obligations.RtiReturns := by
  refine ⟨rfl, fun s => ⟨_, (pull s).1, exec_rti s, ?frame, ?log, pull_plain, ?word⟩, fun s => ⟨_, exec_plp s, ?plp⟩⟩
  case frame => exact (returnFromException_effects s).sameButReads
  case log => exact returnFromException_accesses s
  case word => exact returnFromException_pc_plain s
  case plp => exact ⟨rfl, rfl, rfl, rfl, rfl, rfl⟩

end Sys2Proof.Machine
end

section
/-! PROOFS. The decoder against the encoder (R100 to R104, R119, R120): what `decode` answers, the operand bytes of a
template, and the source forms an assembler accepts (R118, R127). -/

namespace Sys2Proof

open Sys2Proof.Laws
open Sys2Proof.Machine (lowByte highByte lowByte_mkWord highByte_mkWord)

/-! ### Decoding is completing the template of the first byte -/

/-- `decode` answers exactly where the first byte selects a template that the bytes after it complete. -/
theorem decode_eq_ok_iff {bytes rest : List Byte} {i : Instr} :
    decode bytes = .ok (i, rest) ↔
      ∃ op t operands, bytes = op :: (operands ++ rest) ∧ decodeOpcode op = some t ∧
        complete t operands = some i := by
  constructor
  case mp =>
    intro h
    cases bytes with
    | nil => cases h
    | cons op more =>
      simp only [decode] at h
      split at h <;> cases h
      case h_2 ht => exact ⟨op, _, [], rfl, ht, rfl⟩
      case h_3 ht => exact ⟨op, _, [_], rfl, ht, rfl⟩
      case h_4 ht => exact ⟨op, _, [_, _], rfl, ht, rfl⟩
  case mpr =>
    rintro ⟨op, t, operands, rfl, ht, hi⟩
    unfold complete at hi
    split at hi <;> cases hi
    all_goals simp [decode, ht]

/-- The instructions of a template encode their operand as the bytes the template asks for, low byte first (R102,
R104). -/
def Template.KeepsOperandBytes : Template → Prop
  | .bare i => operandBytesOf i.operand = []
  | .withByte f => ∀ b, operandBytesOf (f b).operand = [b]
  | .withWord f => ∀ w, operandBytesOf (f w).operand = [lowByte w, highByte w]

theorem decodeOpcode_keepsOperandBytes {op : Byte} {t : Template} (ht : decodeOpcode op = some t) :
    t.KeepsOperandBytes := by
  unfold decodeOpcode at ht
  split at ht <;> cases ht
  all_goals simp only [Template.KeepsOperandBytes]
  all_goals
    intros
    rfl

theorem operandBytesOf_of_complete {t : Template} {operands : List Byte} {i : Instr} (ht : t.KeepsOperandBytes)
    (hi : complete t operands = some i) : operandBytesOf i.operand = operands := by
  unfold complete at hi
  split at hi <;> cases hi
  case h_1 => exact ht
  case h_2 b => exact ht b
  case h_3 low high => simpa only [lowByte_mkWord, highByte_mkWord] using ht (Machine.mkWord high low)

/-- An instruction completed from the template of an opcode byte is encoded as that byte and the operand bytes. -/
theorem encode_of_complete {op : Byte} {t : Template} {operands : List Byte} {i : Instr}
    (ht : decodeOpcode op = some t) (hi : complete t operands = some i) : encode i = op :: operands := by
  obtain ⟨hop, -⟩ := decodeOpcode_yields ht i (Template.yields_of_complete hi)
  rw [encode, hop, operandBytesOf_of_complete (decodeOpcode_keepsOperandBytes ht) hi]

theorem decode_encode (i : Instr) (rest : List Byte) : decode (encode i ++ rest) = .ok (i, rest) := by
  obtain ⟨-, t, ht, hi⟩ := opcodeLookup i
  exact decode_eq_ok_iff.mpr ⟨_, t, _, rfl, ht, hi⟩

theorem encode_injective {i j : Instr} (h : encode i = encode j) : i = j := by
  have hi := decode_encode i []
  rw [h, decode_encode j []] at hi
  cases hi
  rfl

theorem Instr.wellFormed (i : Instr) : i.WellFormed := by
  obtain ⟨hmode, -⟩ := opcodeLookup i
  exact Bool.and_eq_true_iff.mpr ⟨hmode, operand_fits i.operand⟩

/-- Settles O1: an instruction is what its opcode byte's template makes of its operand bytes, and of no others. -/
theorem decodeInvertsEncode : Obligations.DecodeInvertsEncode := by
  refine ⟨fun i rest _ => decode_encode i rest, fun bytes rest i h => ⟨i.wellFormed, ?_⟩⟩
  obtain ⟨op, t, operands, rfl, ht, hi⟩ := decode_eq_ok_iff.mp h
  rw [encode_of_complete ht hi]
  rfl

/-! ### Source forms -/

/-- The operand that a number stands for in a mode (R104, R114). -/
def Mode.operandOf (k : Mode) (v : Int) : Operand :=
  match k with
  | .implied => .implied
  | .accumulator => .accumulator
  | .relative => .relative (BitVec.ofInt 8 v)
  | .absoluteIndirect => .indirect (BitVec.ofInt 16 v)
  | .immediate => .data (.imm (BitVec.ofInt 8 v))
  | .zeroPage => .data (.mem (.zpg (BitVec.ofInt 8 v)))
  | .zeroPageX => .data (.mem (.zpgX (BitVec.ofInt 8 v)))
  | .zeroPageY => .data (.mem (.zpgY (BitVec.ofInt 8 v)))
  | .absolute => .data (.mem (.abs (BitVec.ofInt 16 v)))
  | .absoluteX => .data (.mem (.absX (BitVec.ofInt 16 v)))
  | .absoluteY => .data (.mem (.absY (BitVec.ofInt 16 v)))
  | .indirectX => .data (.mem (.xInd (BitVec.ofInt 8 v)))
  | .indirectY => .data (.mem (.indY (BitVec.ofInt 8 v)))

/-- A number that fits a mode is the value of the operand it stands for. -/
theorem Mode.operandOf_value {k : Mode} {v : Int} (h : k.fits v = true) : (k.operandOf v).value = v := by
  have hunsigned (n : Nat) (h0 : 0 ≤ v) (h1 : v < 2 ^ n) : ((BitVec.ofInt n v).toNat : Int) = v := by
    rw [BitVec.toNat_ofInt, Int.emod_eq_of_lt h0 (by exact_mod_cast h1), Int.toNat_of_nonneg h0]
  have hsigned (h0 : -128 ≤ v) (h1 : v ≤ 127) : (BitVec.ofInt 8 v).toInt = v := by
    rw [BitVec.toInt_ofInt, Int.bmod_eq_of_le (by simpa using h0) (by simp; omega)]
  cases k <;> simp only [Mode.fits, Bool.and_eq_true, decide_eq_true_eq, beq_iff_eq] at h
  case implied | accumulator => exact h.symm
  case relative => exact hsigned h.1 h.2
  case absolute | absoluteX | absoluteY | absoluteIndirect => exact hunsigned 16 h.1 h.2
  all_goals exact hunsigned 8 h.1 h.2

/-- An operand is what its value stands for in its mode. -/
theorem Operand.operandOf_mode_value (o : Operand) : o.mode.operandOf o.value = o := by
  have hunsigned (n : Nat) (w : BitVec n) : BitVec.ofInt n (w.toNat : Int) = w := by
    rw [BitVec.ofInt_natCast, BitVec.ofNat_toNat, BitVec.setWidth_eq]
  rcases o with _ | _ | b | w | m | m
  case relative => simp [Operand.mode, Operand.value, Mode.operandOf]
  case data.mem => cases m <;> simp [Operand.mode, AddrMode.mode, Operand.value, Mode.operandOf, hunsigned]
  all_goals simp [Operand.mode, Operand.value, Mode.operandOf, hunsigned]

/-- The instruction of a template whose operand is a given number. -/
def Template.fill (t : Template) (v : Int) : Instr :=
  match t with
  | .bare i => i
  | .withByte f => f (BitVec.ofInt 8 v)
  | .withWord f => f (BitVec.ofInt 16 v)

theorem Template.yields_fill (t : Template) (v : Int) : t.Yields (t.fill v) := by
  cases t with
  | bare i => exact rfl
  | withByte f => exact ⟨_, rfl⟩
  | withWord f => exact ⟨_, rfl⟩

theorem decodeOpcode_fill_operand {op : Byte} {t : Template} (ht : decodeOpcode op = some t) (v : Int) :
    (t.fill v).operand = t.cell.2.operandOf v := by
  unfold decodeOpcode at ht
  split at ht <;> cases ht
  all_goals rfl

/-- Every cell of R120 holds an instruction for every operand that fits its mode. -/
theorem exists_source_eq {m : Mnemonic} {k : Mode} {v : Int} (hk : k ∈ m.modes) (hv : k.fits v = true) :
    ∃ i : Instr, i.source = ⟨m, k, v⟩ := by
  obtain ⟨op, hop⟩ := exists_opcodeCell_eq hk
  obtain ⟨t, ht, hcell⟩ := Option.map_eq_some_iff.mp hop
  obtain ⟨-, hfilled⟩ := decodeOpcode_yields ht _ (t.yields_fill v)
  have hoperand := decodeOpcode_fill_operand ht v
  rw [hcell] at hfilled hoperand
  cases hfilled
  refine ⟨t.fill v, ?_⟩
  rw [Instr.source, hoperand, Mode.operandOf_value hv]

/-- The source form fixes the opcode byte, by its cell, and the operand, by its value. -/
theorem source_injective {i j : Instr} (h : i.source = j.source) : i = j := by
  obtain ⟨hmnemonic, hmode, hvalue⟩ := SourceForm.mk.injEq .. ▸ h
  have hop : opcodeOf i = opcodeOf j :=
    (opcodeOf_eq_iff_of_opcodeCell (opcodeCell_opcodeOf j) i).mpr ⟨hmnemonic, hmode⟩
  have hoperand : i.operand = j.operand := by
    rw [← i.operand.operandOf_mode_value, ← j.operand.operandOf_mode_value]
    exact congrArg₂ Mode.operandOf hmode hvalue
  exact encode_injective (by rw [encode, encode, hop, hoperand])

/-- Settles O2: a cell of R120 and an operand that fits its mode make one instruction. -/
theorem assemblerFormsAreTheInstructions : Obligations.AssemblerFormsAreTheInstructions := by
  refine ⟨fun ⟨m, k, v⟩ => ⟨fun h => ?exist, ?pass⟩, fun i j => source_injective⟩
  case exist =>
    obtain ⟨hk, hv⟩ := Bool.and_eq_true_iff.mp h
    exact exists_source_eq (List.contains_iff_mem.mp hk) hv
  case pass =>
    rintro ⟨i, hi⟩
    exact hi ▸ i.wellFormed

/-! ### Single bytes and words -/

/-- The list of R125 holds the bytes without a template, and no others. -/
theorem decodeOpcode_isNone_eq_undocumented (op : Byte) :
    (decodeOpcode op).isNone = Machine.undocumented op := by
  have hall : ∀ n < 256, (decodeOpcode (BitVec.ofNat 8 n)).isNone = Machine.undocumented (BitVec.ofNat 8 n) := by
    decide +kernel
  simpa using hall op.toNat op.isLt

/-- Settles O5: the first seven strings are encodings of the instructions named; the first byte of the last selects
nothing. -/
theorem writtenWordsDecode : Obligations.WrittenWordsDecode :=
  ⟨decode_encode (.ldaImm 0x42) [], decode_encode (.ldaAbs 0xC000) [], decode_encode (.incZpg 0x20) [],
    decode_encode (.jmpInd 0x0314) [], decode_encode (.jsr 0xFFD2) [], decode_encode (.bne 0xFD) [],
    decode_encode .brk [], rfl⟩

end Sys2Proof
end

section
/-! PROOFS. What ADC and SBC can do (R170 to R172), said once for the two of them and for both modes of arithmetic. -/

namespace Sys2Proof.Machine

/-! ### A result put into A -/

theorem drawByte_effects (s : State) : Effects [] s (drawByte s).2 :=
  ⟨(drawByte_same s).sameButStores, Nat.le_succ _, List.suffix_refl _, ⟨[], (List.append_nil _).symm, rfl⟩,
    fun _ _ => rfl, fun _ => ⟨rfl, rfl, rfl⟩, id⟩

/-- `t` is `s` after an arithmetic result: A, N, V, Z and C are new, and free values may have been drawn. -/
structure ResultPut (s t : State) : Prop where
  effects : Effects [] ((s.setA t.a).setP t.p) t
  flags : t.p = { s.p with n := t.p.n, v := t.p.v, z := t.p.z, c := t.p.c }
  accesses : t.accesses = s.accesses

theorem putSum_resultPut (r : Sum) (s : State) : ResultPut s (putSum r s) :=
  ⟨((Effects.refl s).setA _).setP _, rfl, rfl⟩

theorem putDecimal_resultPut (r : Byte × Bool) (s : State) : ResultPut s (putDecimal r s) :=
  ⟨((drawByte_effects s).setA _).setP _, rfl, rfl⟩

theorem putOpen_resultPut (s : State) : ResultPut s (putOpen s) :=
  ⟨(((drawByte_effects s).trans (drawByte_effects _)).setA _).setP _, rfl, rfl⟩

theorem addToA_resultPut (m : Byte) (s : State) : ResultPut s (addToA m s) := by
  unfold addToA
  split
  · split
    · exact putDecimal_resultPut _ s
    · exact putOpen_resultPut s
  · exact putSum_resultPut _ s

theorem subFromA_resultPut (m : Byte) (s : State) : ResultPut s (subFromA m s) := by
  unfold subFromA
  split
  · split
    · exact putDecimal_resultPut _ s
    · exact putOpen_resultPut s
  · exact putSum_resultPut _ s

/-! ### The forms -/

theorem exec_of_adc {i : Instr} (h : i.mnemonic = .adc) :
    ∃ d, i.operand = .data d ∧ ∀ s, exec i s = .next (adc d (readCost d) s) := by
  cases i <;> cases h
  all_goals exact ⟨_, rfl, fun _ => rfl⟩

theorem exec_of_sbc {i : Instr} (h : i.mnemonic = .sbc) :
    ∃ d, i.operand = .data d ∧ ∀ s, exec i s = .next (sbc d (readCost d) s) := by
  cases i <;> cases h
  all_goals exact ⟨_, rfl, fun _ => rfl⟩

/-- `t` is `s` after an arithmetic instruction with operand `d`: the reads and the cycles of the operand, and a result
put into A. -/
structure ArithmeticDone (d : DataOperand) (s t : State) : Prop where
  effects : Effects [] (((s.setA t.a).setP t.p).tick (readCycles d (readData d s).crossed)) t
  flags : t.p = { s.p with n := t.p.n, v := t.p.v, z := t.p.z, c := t.p.c }
  accesses : t.accesses = (readData d s).st.accesses

theorem arithmeticDone_of_resultPut {d : DataOperand} {s t : State} (h : ResultPut (readData d s).st t) :
    ArithmeticDone d s (t.tick (costCycles (readCost d) (readData d s).crossed)) := by
  have hread := (((readData_effects d s).setA t.a).setP t.p).trans h.effects
  rw [costCycles_readCost]
  refine ⟨hread.tick _, ?_, h.accesses⟩
  rw [State.tick_p, ← (readData_same d s).p_eq]
  exact h.flags

theorem adc_arithmeticDone (d : DataOperand) (s : State) : ArithmeticDone d s (adc d (readCost d) s) :=
  arithmeticDone_of_resultPut (addToA_resultPut _ _)

theorem sbc_arithmeticDone (d : DataOperand) (s : State) : ArithmeticDone d s (sbc d (readCost d) s) :=
  arithmeticDone_of_resultPut (subFromA_resultPut _ _)

end Sys2Proof.Machine
end

section
/-! PROOFS. What any instruction can do, said once: it completes, it writes the registers and flags it is listed as
writing, it stores to the addresses it is listed as storing to, and it takes 2 to 7 cycles. -/

namespace Sys2Proof.Machine

/-! ### Registers and flags an instruction is listed as writing -/

/-- Where the flags `q` differ from `p`, the instruction is listed as writing them (R28, R29). -/
structure FlagsWritten (i : Instr) (p q : Status) : Prop where
  nz : writesNZ i = true ∨ (q.n = p.n ∧ q.z = p.z)
  c : writesC i = true ∨ q.c = p.c
  v : writesV i = true ∨ q.v = p.v
  d : writesD i = true ∨ q.d = p.d
  i : writesI i = true ∨ q.i = p.i

/-- The instructions after which one boundary can still see the old I (R272). -/
def delaysMask (i : Instr) : Prop :=
  i.mnemonic = .cli ∨ i.mnemonic = .sei ∨ i.mnemonic = .plp

/-- `r` is `s` but for registers and flags that the instruction is listed as writing (R20 to R29), the I it remembers,
and the time. -/
structure RegistersWritten (i : Instr) (s r : State) : Prop where
  same : r = { s with
    a := r.a, x := r.x, y := r.y, sp := r.sp, pc := r.pc, p := r.p, iDelayed := r.iDelayed, cycles := r.cycles }
  a : writesA i = true ∨ r.a = s.a
  x : writesX i = true ∨ r.x = s.x
  y : writesY i = true ∨ r.y = s.y
  sp : writesSp i = true ∨ r.sp = s.sp
  pc : transfersControl i = true ∨ r.pc = s.pc
  flags : FlagsWritten i s.p r.p
  iDelayed : delaysMask i ∨ r.iDelayed = s.iDelayed

section
variable {i : Instr} {s r : State} {p : Status}

theorem FlagsWritten.refl : FlagsWritten i p p :=
  ⟨.inr ⟨rfl, rfl⟩, .inr rfl, .inr rfl, .inr rfl, .inr rfl⟩

theorem FlagsWritten.of_nz (h : writesNZ i = true) (v : Byte) : FlagsWritten i p (nzOf p v) :=
  ⟨.inl h, .inr rfl, .inr rfl, .inr rfl, .inr rfl⟩

theorem FlagsWritten.of_setNZ (h : writesNZ i = true) (v : Byte) : FlagsWritten i p (setNZ p v) :=
  ⟨.inl h, .inr rfl, .inr rfl, .inr rfl, .inr rfl⟩

theorem FlagsWritten.of_c (h : writesC i = true) (b : Bool) : FlagsWritten i p { p with c := b } :=
  ⟨.inr ⟨rfl, rfl⟩, .inl h, .inr rfl, .inr rfl, .inr rfl⟩

theorem FlagsWritten.of_v (h : writesV i = true) (b : Bool) : FlagsWritten i p { p with v := b } :=
  ⟨.inr ⟨rfl, rfl⟩, .inr rfl, .inl h, .inr rfl, .inr rfl⟩

theorem FlagsWritten.of_d (h : writesD i = true) (b : Bool) : FlagsWritten i p { p with d := b } :=
  ⟨.inr ⟨rfl, rfl⟩, .inr rfl, .inr rfl, .inl h, .inr rfl⟩

theorem FlagsWritten.of_i (h : writesI i = true) (b : Bool) : FlagsWritten i p { p with i := b } :=
  ⟨.inr ⟨rfl, rfl⟩, .inr rfl, .inr rfl, .inr rfl, .inl h⟩

theorem FlagsWritten.of_all (hnz : writesNZ i = true) (hc : writesC i = true) (hv : writesV i = true)
    (hd : writesD i = true) (hi : writesI i = true) (q : Status) : FlagsWritten i p q :=
  ⟨.inl hnz, .inl hc, .inl hv, .inl hd, .inl hi⟩

theorem RegistersWritten.refl : RegistersWritten i s s :=
  ⟨rfl, .inr rfl, .inr rfl, .inr rfl, .inr rfl, .inr rfl, .refl, .inr rfl⟩

variable (h : RegistersWritten i s r)
include h

theorem RegistersWritten.setA (hw : writesA i = true) (v : Byte) : RegistersWritten i s (r.setA v) :=
  ⟨by rw [h.same]; rfl, .inl hw, h.x, h.y, h.sp, h.pc, h.flags, h.iDelayed⟩

theorem RegistersWritten.setX (hw : writesX i = true) (v : Byte) : RegistersWritten i s (r.setX v) :=
  ⟨by rw [h.same]; rfl, h.a, .inl hw, h.y, h.sp, h.pc, h.flags, h.iDelayed⟩

theorem RegistersWritten.setY (hw : writesY i = true) (v : Byte) : RegistersWritten i s (r.setY v) :=
  ⟨by rw [h.same]; rfl, h.a, h.x, .inl hw, h.sp, h.pc, h.flags, h.iDelayed⟩

theorem RegistersWritten.setSp (hw : writesSp i = true) (v : Byte) : RegistersWritten i s (r.setSp v) :=
  ⟨by rw [h.same]; rfl, h.a, h.x, h.y, .inl hw, h.pc, h.flags, h.iDelayed⟩

theorem RegistersWritten.setPc (hw : transfersControl i = true) (v : Word) : RegistersWritten i s (r.setPc v) :=
  ⟨by rw [h.same]; rfl, h.a, h.x, h.y, h.sp, .inl hw, h.flags, h.iDelayed⟩

theorem RegistersWritten.setP (hw : FlagsWritten i s.p p) : RegistersWritten i s (r.setP p) :=
  ⟨by rw [h.same]; rfl, h.a, h.x, h.y, h.sp, h.pc, hw, h.iDelayed⟩

theorem RegistersWritten.setIDelayed (hw : delaysMask i) (v : Option Bool) :
    RegistersWritten i s (r.setIDelayed v) :=
  ⟨by rw [h.same]; rfl, h.a, h.x, h.y, h.sp, h.pc, h.flags, .inl hw⟩

theorem RegistersWritten.tick (n : Nat) : RegistersWritten i s (r.tick n) :=
  ⟨by rw [h.same]; rfl, h.a, h.x, h.y, h.sp, h.pc, h.flags, h.iDelayed⟩

end

/-! ### Every instruction completes -/

/-- The instruction completes in 2 to 7 cycles, having written no register, flag or byte but those it is listed as
writing. -/
def Completes (i : Instr) (s : State) : Prop :=
  ∃ r t n, exec i s = .next t ∧ RegistersWritten i s r ∧ Effects (storeTargets i s) (r.tick n) t ∧
    r.cycles = s.cycles ∧ 2 ≤ n ∧ n ≤ 7

theorem readCycles_bounds (d : DataOperand) (crossed : Bool) :
    2 ≤ readCycles d crossed ∧ readCycles d crossed ≤ 7 := by
  rcases d with m | m
  · simp [readCycles]
  · have hcrossed : crossed.toNat ≤ 1 := crossed.toNat_le
    cases m <;> simp only [readCycles] <;> omega

theorem storeCycles_bounds (m : AddrMode) : 2 ≤ storeCycles m ∧ storeCycles m ≤ 7 := by
  cases m <;> simp [storeCycles]

theorem takenCycles_bounds (pc : Word) (b : Byte) : 2 ≤ takenCycles pc b ∧ takenCycles pc b ≤ 7 := by
  unfold takenCycles
  split <;> decide

/-- Instructions of one mnemonic that has the mode Implied alone are one instruction. -/
theorem eq_of_mnemonic_implied {i : Instr} (j : Instr) (h : i.mnemonic = j.mnemonic)
    (hj : j.mnemonic.modes = [.implied]) : i = j := by
  have hvalue (k : Instr) (hk : k.mode = .implied) : k.operand.value = 0 := by
    have hoperand := k.operand.operandOf_mode_value
    rw [show k.operand.mode = .implied from hk] at hoperand
    rw [← hoperand]
    rfl
  have hi : i.mode = .implied := by simpa [h, hj] using i.mode_mem_modes
  have hj : j.mode = .implied := by simpa [hj] using j.mode_mem_modes
  apply source_injective
  rw [Instr.source, Instr.source, h, hi, hj, hvalue i hi, hvalue j hj]

section
variable {i : Instr} {s : State}

/-- The cost of the mode of a read-modify-write, where the mnemonic has no other memory form than the four (R320). -/
theorem modifyCycles_bounds {m : AddrMode} (hm : i.operand = .data (.mem m))
    (hmodes : i.mnemonic.modes ⊆ [.accumulator, .zeroPage, .zeroPageX, .absolute, .absoluteX]) :
    2 ≤ modifyCycles m.mode ∧ modifyCycles m.mode ≤ 7 := by
  have hmode : i.mode = m.mode := by rw [Instr.mode, hm]; rfl
  have hmem := hmodes (hmode ▸ i.mode_mem_modes)
  have hbounds (k : Mode) (hk : k ∈ [Mode.accumulator, .zeroPage, .zeroPageX, .absolute, .absoluteX]) :
      k = .accumulator ∨ (2 ≤ modifyCycles k ∧ modifyCycles k ≤ 7) := by
    revert k
    decide
  refine (hbounds _ hmem).resolve_left ?_
  cases m <;> nofun

theorem completes_of_effects {r t : State} {l : List Word} {n : Nat} (hexec : exec i s = .next t)
    (htargets : storeTargets i s = l) (hwritten : RegistersWritten i s r) (heffects : Effects l (r.tick n) t)
    (hcycles : r.cycles = s.cycles) (hn : 2 ≤ n ∧ n ≤ 7) : Completes i s :=
  ⟨r, t, n, hexec, hwritten, htargets ▸ heffects, hcycles, hn⟩

/-- An instruction that makes no access. -/
theorem completes_of_registers {r : State} {n : Nat} (hexec : exec i s = .next (r.tick n))
    (htargets : storeTargets i s = []) (hwritten : RegistersWritten i s r) (hcycles : r.cycles = s.cycles)
    (hn : 2 ≤ n ∧ n ≤ 7) : Completes i s :=
  completes_of_effects hexec htargets hwritten (Effects.refl _) hcycles hn

/-- A read-modify-write stores once, to its effective address. -/
theorem readWrite_effects (m : AddrMode) (v : Byte) (p : Status) (n : Nat) :
    Effects [(resolve m s).addr] ((s.setP p).tick n)
      (((memWrite (resolve m s).addr v (readData (.mem m) s).st).setP p).tick n) :=
  (((readData_effects (.mem m) s).after_reads (memWrite_effects _ v _)).setP p).tick n

/-! #### Instructions that read their operand -/

theorem completes_of_lda (h : i.mnemonic = .lda) : Completes i s := by
  obtain ⟨d, -, hexec⟩ := exec_of_lda h
  have hwritten := (RegistersWritten.refl (i := i) (s := s)).setA (by rw [writesA, h]) (readData d s).val
  exact completes_of_effects (hexec s) (by rw [storeTargets, h])
    (hwritten.setP (.of_nz (by rw [writesNZ, h]; rfl) _)) (loadA_effects d s) rfl (readCycles_bounds _ _)

theorem completes_of_ldx (h : i.mnemonic = .ldx) : Completes i s := by
  obtain ⟨d, -, hexec⟩ := exec_of_ldx h
  have hwritten := (RegistersWritten.refl (i := i) (s := s)).setX (by rw [writesX, h]; rfl) (readData d s).val
  exact completes_of_effects (hexec s) (by rw [storeTargets, h])
    (hwritten.setP (.of_nz (by rw [writesNZ, h]; rfl) _)) (loadX_effects d s) rfl (readCycles_bounds _ _)

theorem completes_of_ldy (h : i.mnemonic = .ldy) : Completes i s := by
  obtain ⟨d, -, hexec⟩ := exec_of_ldy h
  have hwritten := (RegistersWritten.refl (i := i) (s := s)).setY (by rw [writesY, h]; rfl) (readData d s).val
  exact completes_of_effects (hexec s) (by rw [storeTargets, h])
    (hwritten.setP (.of_nz (by rw [writesNZ, h]; rfl) _)) (loadY_effects d s) rfl (readCycles_bounds _ _)

/-- AND, ORA and EOR write A and set N and Z. -/
theorem completes_of_logicA {f : Byte → Byte → Byte} {d : DataOperand}
    (hexec : exec i s = .next (logicA f d (readCost d) s)) (ha : writesA i = true) (hnz : writesNZ i = true)
    (htargets : storeTargets i s = []) : Completes i s :=
  completes_of_effects hexec htargets ((RegistersWritten.refl.setA ha _).setP (.of_nz hnz _)) (logicA_effects f d s) rfl
    (readCycles_bounds _ _)

/-- ADC and SBC write A and N, V, Z and C. -/
theorem completes_of_arithmeticDone {d : DataOperand} {t : State} (hexec : exec i s = .next t)
    (hdone : ArithmeticDone d s t) (hm : i.mnemonic = .adc ∨ i.mnemonic = .sbc) : Completes i s := by
  have ha : writesA i = true := by rw [writesA]; rcases hm with h | h <;> rw [h]
  have hnz : writesNZ i = true := by rw [writesNZ]; rcases hm with h | h <;> rw [h] <;> rfl
  have hv : writesV i = true := by rw [writesV]; rcases hm with h | h <;> rw [h] <;> rfl
  have hc : writesC i = true := by rw [writesC]; rcases hm with h | h <;> rw [h] <;> rfl
  have htargets : storeTargets i s = [] := by rw [storeTargets]; rcases hm with h | h <;> rw [h]
  have hflags : FlagsWritten i s.p t.p :=
    ⟨.inl hnz, .inl hc, .inl hv, .inr (by rw [hdone.flags]), .inr (by rw [hdone.flags])⟩
  exact completes_of_effects hexec htargets ((RegistersWritten.refl.setA ha _).setP hflags) hdone.effects rfl
    (readCycles_bounds _ _)

/-- CMP, CPX and CPY set N, Z and C. -/
theorem completes_of_compareReg {reg : Byte} {d : DataOperand}
    (hexec : exec i s = .next (compareReg reg d (readCost d) s)) (hnz : writesNZ i = true) (hc : writesC i = true)
    (htargets : storeTargets i s = []) : Completes i s :=
  completes_of_effects hexec htargets
    (RegistersWritten.refl.setP (p := compareFlags s.p reg (readData d s).val)
      ⟨.inl hnz, .inl hc, .inr rfl, .inr rfl, .inr rfl⟩)
    (compareReg_effects reg d s) rfl (readCycles_bounds _ _)

theorem completes_of_bit (h : i.mnemonic = .bit) : Completes i s := by
  obtain ⟨m, -, hexec⟩ := exec_of_bit h
  have hflags (v : Byte) : FlagsWritten i s.p (bitFlags s.p s.a v) :=
    ⟨.inl (by rw [writesNZ, h]; rfl), .inr rfl, .inl (by rw [writesV, h]; rfl), .inr rfl, .inr rfl⟩
  exact completes_of_effects (hexec s) (by rw [storeTargets, h]) (RegistersWritten.refl.setP (hflags _))
    (bitTest_effects m _ s) rfl (readCycles_bounds _ _)

/-! #### Instructions that store to their effective address -/

theorem completes_of_storeReg {v : Byte} {m : AddrMode} (hexec : exec i s = .next (storeReg v m (storeCycles m) s))
    (htargets : storeTargets i s = [(resolve m s).addr]) : Completes i s :=
  completes_of_effects hexec htargets .refl (storeReg_effects v m _ s) rfl (storeCycles_bounds m)

/-- INC and DEC set N and Z from the byte they store. -/
theorem completes_of_addToMem {delta : Byte} {m : AddrMode} (hm : i.operand = .data (.mem m))
    (hexec : exec i s = .next (addToMem delta m (modifyCycles m.mode) s)) (hnz : writesNZ i = true)
    (hmodes : i.mnemonic.modes ⊆ [.accumulator, .zeroPage, .zeroPageX, .absolute, .absoluteX])
    (htargets : storeTargets i s = [(resolve m s).addr]) : Completes i s :=
  completes_of_effects hexec htargets (RegistersWritten.refl.setP (.of_setNZ hnz _)) (readWrite_effects m _ _ _)
    rfl (modifyCycles_bounds hm hmodes)

/-- A shift or rotate writes A or one byte of memory, and sets N, Z and C. -/
theorem completes_of_runsShift {f : Byte → Bool → Byte × Bool} (hrun : RunsShift f i)
    (hm : i.mnemonic ∈ [Mnemonic.asl, .lsr, .rol, .ror]) : Completes i s := by
  simp only [List.mem_cons, List.not_mem_nil, or_false] at hm
  have hnz : writesNZ i = true := by rw [writesNZ]; rcases hm with h | h | h | h <;> rw [h] <;> rfl
  have hc : writesC i = true := by rw [writesC]; rcases hm with h | h | h | h <;> rw [h] <;> rfl
  have hflags (r : Byte × Bool) : FlagsWritten i s.p (shiftFlags s.p r) :=
    ⟨.inl hnz, .inl hc, .inr rfl, .inr rfl, .inr rfl⟩
  obtain ⟨hop, hexec⟩ | ⟨m, hop, hexec⟩ := hrun
  case inl =>
    have hmode : i.mode = .accumulator := by rw [Instr.mode, hop]; rfl
    have ha : writesA i = true := by rw [writesA, hmode]; rcases hm with h | h | h | h <;> rw [h] <;> rfl
    have htargets : storeTargets i s = [] := by rw [storeTargets, hop]; rcases hm with h | h | h | h <;> rw [h]
    exact completes_of_effects (hexec s) htargets ((RegistersWritten.refl.setA ha _).setP (hflags (f s.a s.p.c)))
      (n := 2) (Effects.refl _) rfl (by decide)
  case inr =>
    have hmodes : i.mnemonic.modes ⊆ [.accumulator, .zeroPage, .zeroPageX, .absolute, .absoluteX] := by
      rcases hm with h | h | h | h <;> rw [h] <;> exact List.Subset.refl _
    have htargets : storeTargets i s = [(resolve m s).addr] := by
      rw [storeTargets, hop]; rcases hm with h | h | h | h <;> rw [h]
    exact completes_of_effects (hexec s) htargets (RegistersWritten.refl.setP (hflags _)) (readWrite_effects m _ _ _)
      rfl (modifyCycles_bounds hop hmodes)

/-! #### Branches -/

theorem exec_of_branch (h : i.mnemonic ∈ [Mnemonic.bcc, .bcs, .beq, .bne, .bmi, .bpl, .bvc, .bvs]) :
    ∃ b, i.operand = .relative b ∧ ∀ s, exec i s = .next (branch (branchTaken i.mnemonic s.p) b s) := by
  simp only [List.mem_cons, List.not_mem_nil, or_false] at h
  rcases h with h | h | h | h | h | h | h | h
  all_goals
    cases i <;> cases h
    exact ⟨_, rfl, fun _ => rfl⟩

theorem completes_of_branch (h : i.mnemonic ∈ [Mnemonic.bcc, .bcs, .beq, .bne, .bmi, .bpl, .bvc, .bvs]) :
    Completes i s := by
  obtain ⟨b, -, hexec⟩ := exec_of_branch h
  specialize hexec s
  have hall (m : Mnemonic) (hm : m ∈ [Mnemonic.bcc, .bcs, .beq, .bne, .bmi, .bpl, .bvc, .bvs]) :
      [Mnemonic.bcc, .bcs, .beq, .bne, .bmi, .bpl, .bvc, .bvs, .jmp, .jsr, .rts, .brk, .rti].contains m = true := by
    revert m
    decide
  have hpc : transfersControl i = true := hall _ h
  have htargets : storeTargets i s = [] := by
    rw [storeTargets]
    simp only [List.mem_cons, List.not_mem_nil, or_false] at h
    rcases h with h | h | h | h | h | h | h | h <;> rw [h]
  rw [branch] at hexec
  split at hexec
  · exact completes_of_effects hexec htargets (RegistersWritten.refl.setPc hpc _) (Effects.refl _) rfl
      (takenCycles_bounds _ _)
  · exact completes_of_effects hexec htargets .refl (Effects.refl _) rfl (by decide)

end

/-! #### Flag instructions -/

section
variable (s : State)

theorem exec_clc : exec .clc s = .next ((s.setP { s.p with c := false }).tick 2) := rfl
theorem exec_sec : exec .sec s = .next ((s.setP { s.p with c := true }).tick 2) := rfl
theorem exec_cli : exec .cli s = .next (writeI false s) := rfl
theorem exec_sei : exec .sei s = .next (writeI true s) := rfl
theorem exec_cld : exec .cld s = .next ((s.setP { s.p with d := false }).tick 2) := rfl
theorem exec_sed : exec .sed s = .next ((s.setP { s.p with d := true }).tick 2) := rfl
theorem exec_clv : exec .clv s = .next ((s.setP { s.p with v := false }).tick 2) := rfl
theorem exec_nop : exec .nop s = .next (s.tick 2) := rfl

theorem exec_php : exec .php s = .next ((push (statusByte s.p true) s).tick 3) := rfl
theorem exec_jsr (w : Word) : exec (.jsr w) s = .next (((pushPc (s.pc - 1) s).setPc w).tick 6) := rfl

end

/-! #### All of them -/

/-- Every instruction completes, by its mnemonic. -/
theorem exec_completes (i : Instr) (s : State) : Completes i s := by
  have hrefl : RegistersWritten i s s := .refl
  cases h : i.mnemonic
  case lda => exact completes_of_lda h
  case ldx => exact completes_of_ldx h
  case ldy => exact completes_of_ldy h
  case sta =>
    obtain ⟨m, hm, hexec⟩ := exec_of_sta h
    exact completes_of_storeReg (hexec s) (by rw [storeTargets, h, hm])
  case stx =>
    obtain ⟨m, hm, hexec⟩ := exec_of_stx h
    exact completes_of_storeReg (hexec s) (by rw [storeTargets, h, hm])
  case sty =>
    obtain ⟨m, hm, hexec⟩ := exec_of_sty h
    exact completes_of_storeReg (hexec s) (by rw [storeTargets, h, hm])
  case tax =>
    obtain rfl := eq_of_mnemonic_implied .tax h rfl
    exact completes_of_registers (exec_tax s) rfl ((hrefl.setX rfl _).setP (.of_setNZ rfl _)) rfl (by decide)
  case tay =>
    obtain rfl := eq_of_mnemonic_implied .tay h rfl
    exact completes_of_registers (exec_tay s) rfl ((hrefl.setY rfl _).setP (.of_setNZ rfl _)) rfl (by decide)
  case txa =>
    obtain rfl := eq_of_mnemonic_implied .txa h rfl
    exact completes_of_registers (exec_txa s) rfl ((hrefl.setA rfl _).setP (.of_setNZ rfl _)) rfl (by decide)
  case tya =>
    obtain rfl := eq_of_mnemonic_implied .tya h rfl
    exact completes_of_registers (exec_tya s) rfl ((hrefl.setA rfl _).setP (.of_setNZ rfl _)) rfl (by decide)
  case tsx =>
    obtain rfl := eq_of_mnemonic_implied .tsx h rfl
    exact completes_of_registers (exec_tsx s) rfl ((hrefl.setX rfl _).setP (.of_setNZ rfl _)) rfl (by decide)
  case inx =>
    obtain rfl := eq_of_mnemonic_implied .inx h rfl
    exact completes_of_registers (exec_inx s) rfl ((hrefl.setX rfl _).setP (.of_setNZ rfl _)) rfl (by decide)
  case iny =>
    obtain rfl := eq_of_mnemonic_implied .iny h rfl
    exact completes_of_registers (exec_iny s) rfl ((hrefl.setY rfl _).setP (.of_setNZ rfl _)) rfl (by decide)
  case dex =>
    obtain rfl := eq_of_mnemonic_implied .dex h rfl
    exact completes_of_registers (exec_dex s) rfl ((hrefl.setX rfl _).setP (.of_setNZ rfl _)) rfl (by decide)
  case dey =>
    obtain rfl := eq_of_mnemonic_implied .dey h rfl
    exact completes_of_registers (exec_dey s) rfl ((hrefl.setY rfl _).setP (.of_setNZ rfl _)) rfl (by decide)
  case txs =>
    obtain rfl := eq_of_mnemonic_implied .txs h rfl
    exact completes_of_registers (exec_txs s) rfl (hrefl.setSp rfl _) rfl (by decide)
  case clc =>
    obtain rfl := eq_of_mnemonic_implied .clc h rfl
    exact completes_of_registers (exec_clc s) rfl (hrefl.setP (.of_c rfl _)) rfl (by decide)
  case sec =>
    obtain rfl := eq_of_mnemonic_implied .sec h rfl
    exact completes_of_registers (exec_sec s) rfl (hrefl.setP (.of_c rfl _)) rfl (by decide)
  case cld =>
    obtain rfl := eq_of_mnemonic_implied .cld h rfl
    exact completes_of_registers (exec_cld s) rfl (hrefl.setP (.of_d rfl _)) rfl (by decide)
  case sed =>
    obtain rfl := eq_of_mnemonic_implied .sed h rfl
    exact completes_of_registers (exec_sed s) rfl (hrefl.setP (.of_d rfl _)) rfl (by decide)
  case clv =>
    obtain rfl := eq_of_mnemonic_implied .clv h rfl
    exact completes_of_registers (exec_clv s) rfl (hrefl.setP (.of_v rfl _)) rfl (by decide)
  case cli =>
    obtain rfl := eq_of_mnemonic_implied .cli h rfl
    exact completes_of_registers (exec_cli s) rfl
      ((hrefl.setP (.of_i rfl _)).setIDelayed (.inl rfl) _) rfl
      (by decide)
  case sei =>
    obtain rfl := eq_of_mnemonic_implied .sei h rfl
    exact completes_of_registers (exec_sei s) rfl
      ((hrefl.setP (.of_i rfl _)).setIDelayed (.inr (.inl rfl)) _) rfl
      (by decide)
  case nop =>
    obtain rfl := eq_of_mnemonic_implied .nop h rfl
    exact completes_of_registers (exec_nop s) rfl .refl rfl (by decide)
  case pha =>
    obtain rfl := eq_of_mnemonic_implied .pha h rfl
    exact completes_of_effects (exec_pha s) rfl (hrefl.setSp rfl _) ((push_effects _ s).tick 3) rfl
      (by decide)
  case php =>
    obtain rfl := eq_of_mnemonic_implied .php h rfl
    exact completes_of_effects (exec_php s) rfl (hrefl.setSp rfl _) ((push_effects _ s).tick 3) rfl
      (by decide)
  case pla =>
    obtain rfl := eq_of_mnemonic_implied .pla h rfl
    exact completes_of_effects (exec_pla s) rfl
      (((hrefl.setSp rfl _).setA rfl _).setP (.of_nz rfl _))
      ((((pull_effects s).setA _).setP _).tick 4) rfl (by decide)
  case plp =>
    obtain rfl := eq_of_mnemonic_implied .plp h rfl
    exact completes_of_effects (exec_plp s) rfl
      (((hrefl.setSp rfl _).setP (.of_all rfl rfl rfl rfl rfl _)).setIDelayed
        (.inr (.inr rfl)) _)
      ((((pull_effects s).setP _).setIDelayed _).tick 4) rfl (by decide)
  case adc =>
    obtain ⟨d, -, hexec⟩ := exec_of_adc h
    exact completes_of_arithmeticDone (hexec s) (adc_arithmeticDone d s) (.inl h)
  case sbc =>
    obtain ⟨d, -, hexec⟩ := exec_of_sbc h
    exact completes_of_arithmeticDone (hexec s) (sbc_arithmeticDone d s) (.inr h)
  case inc =>
    obtain ⟨m, hm, hexec⟩ := exec_of_inc h
    exact completes_of_addToMem hm (hexec s) (by rw [writesNZ, h]; rfl) (by rw [h]; decide)
      (by rw [storeTargets, h, hm])
  case dec =>
    obtain ⟨m, hm, hexec⟩ := exec_of_dec h
    exact completes_of_addToMem hm (hexec s) (by rw [writesNZ, h]; rfl) (by rw [h]; decide)
      (by rw [storeTargets, h, hm])
  case and =>
    obtain ⟨d, -, hexec⟩ := exec_of_and h
    exact completes_of_logicA (hexec s) (by rw [writesA, h]) (by rw [writesNZ, h]; rfl) (by rw [storeTargets, h])
  case ora =>
    obtain ⟨d, -, hexec⟩ := exec_of_ora h
    exact completes_of_logicA (hexec s) (by rw [writesA, h]) (by rw [writesNZ, h]; rfl) (by rw [storeTargets, h])
  case eor =>
    obtain ⟨d, -, hexec⟩ := exec_of_eor h
    exact completes_of_logicA (hexec s) (by rw [writesA, h]) (by rw [writesNZ, h]; rfl) (by rw [storeTargets, h])
  case bit => exact completes_of_bit h
  case asl => exact completes_of_runsShift (runsShift_of_asl h) (by rw [h]; decide)
  case lsr => exact completes_of_runsShift (runsShift_of_lsr h) (by rw [h]; decide)
  case rol => exact completes_of_runsShift (runsShift_of_rol h) (by rw [h]; decide)
  case ror => exact completes_of_runsShift (runsShift_of_ror h) (by rw [h]; decide)
  case cmp =>
    obtain ⟨d, -, hexec⟩ := exec_of_cmp h
    exact completes_of_compareReg (hexec s) (by rw [writesNZ, h]; rfl) (by rw [writesC, h]; rfl)
      (by rw [storeTargets, h])
  case cpx =>
    obtain ⟨d, -, hexec⟩ := exec_of_cpx h
    exact completes_of_compareReg (hexec s) (by rw [writesNZ, h]; rfl) (by rw [writesC, h]; rfl)
      (by rw [storeTargets, h])
  case cpy =>
    obtain ⟨d, -, hexec⟩ := exec_of_cpy h
    exact completes_of_compareReg (hexec s) (by rw [writesNZ, h]; rfl) (by rw [writesC, h]; rfl)
      (by rw [storeTargets, h])
  case bcc | bcs | beq | bne | bmi | bpl | bvc | bvs => exact completes_of_branch (by rw [h]; decide)
  case jmp =>
    cases i <;> cases h
    case jmpAbs w =>
      exact completes_of_registers (r := s.setPc w) (exec_jmpAbs w s) rfl (hrefl.setPc rfl w) rfl
        (n := 3) (by decide)
    case jmpInd w =>
      exact completes_of_effects (exec_jmpInd w s) rfl (hrefl.setPc rfl _)
        (((readJumpPointer_effects w s).setPc _).tick 5) rfl (by decide)
  case jsr =>
    cases i <;> cases h
    case jsr w =>
      exact completes_of_effects (exec_jsr s w) rfl ((hrefl.setSp rfl _).setPc rfl w)
        (((pushPc_effects _ s).setPc w).tick 6) rfl (by decide)
  case rts =>
    obtain rfl := eq_of_mnemonic_implied .rts h rfl
    exact completes_of_effects (exec_rts s) rfl ((hrefl.setSp rfl _).setPc rfl _)
      (((pullPc_effects s).setPc _).tick 6) rfl (by decide)
  case brk =>
    obtain rfl := eq_of_mnemonic_implied .brk h rfl
    exact completes_of_effects (exec_brk s) rfl
      ((((hrefl.setPc rfl (s.pc + 1)).setSp rfl _).setP (.of_i rfl _)).setPc rfl _)
      (takeException_effects irqVector true true (s.setPc (s.pc + 1))) rfl (by decide)
  case rti =>
    obtain rfl := eq_of_mnemonic_implied .rti h rfl
    exact completes_of_effects (exec_rti s) rfl
      (((hrefl.setSp rfl _).setP (.of_all rfl rfl rfl rfl rfl _)).setPc rfl _)
      (returnFromException_effects s) rfl (by decide)

/-! ### The frames of an instruction -/

/-- Settles O56: an instruction writes the registers it is listed as writing, its stores and reads write none, and
neither touches the hidden state. -/
theorem registerFrame : Obligations.RegisterFrame := by
  intro i s
  obtain ⟨r, t, n, hexec, hwritten, heffects, -⟩ := exec_completes i s
  have hsame : SameButStores (r.tick n) t := heffects.same
  have hkept {α : Type} {w : Bool} {x y z : α} (hx : x = y) (hy : w = true ∨ y = z) : w = false → x = z := by
    rintro rfl
    exact hx.trans (hy.resolve_left Bool.false_ne_true)
  refine ⟨t, hexec, hkept hsame.a_eq hwritten.a, hkept hsame.x_eq hwritten.x, hkept hsame.y_eq hwritten.y,
    hkept hsame.sp_eq hwritten.sp, hkept hsame.pc_eq hwritten.pc, ?hidden⟩
  rw [hsame, hwritten.same]
  exact ⟨rfl, rfl, rfl, rfl, rfl, rfl, rfl⟩

/-- Settles O57: an instruction writes the flags it is listed as writing, and its stores and reads write none. -/
theorem flagFrame : Obligations.FlagFrame := by
  intro i s
  obtain ⟨r, t, n, hexec, hwritten, heffects, -⟩ := exec_completes i s
  obtain ⟨hnz, hc, hv, hd, hi⟩ := hwritten.flags
  have hp : t.p = r.p := heffects.same.p_eq
  have hkept {w : Bool} {q : Prop} (h : w = true ∨ q) : w = false → q := by
    rintro rfl
    exact h.resolve_left Bool.false_ne_true
  rw [← hp] at hnz hc hv hd hi
  exact ⟨t, hexec, hkept hnz, hkept hc, hkept hv, hkept hd, hkept hi⟩

/-- Before its stores an instruction has changed no byte. -/
theorem RegistersWritten.byteAt_eq {i : Instr} {s r : State} (h : RegistersWritten i s r) (a : Word) :
    byteAt r a = byteAt s a := by
  rw [h.same]
  rfl

/-- Settles O58: the writes of an instruction are those of its effects. -/
theorem memoryFrame : Obligations.MemoryFrame := by
  intro i s
  obtain ⟨r, t, n, hexec, hwritten, heffects, -⟩ := exec_completes i s
  obtain ⟨log, hlog, htargets⟩ := heffects.log
  refine ⟨t, log, hexec, ?accesses, htargets, fun a ha => ?bytes, fun hnone => ?none⟩
  case accesses =>
    rw [hlog, hwritten.same]
    rfl
  case bytes => exact (heffects.bytes a ha).trans (hwritten.byteAt_eq a)
  case none =>
    obtain ⟨hmem, hddr, hpor⟩ := heffects.none hnone
    rw [hmem, hddr, hpor, hwritten.same]
    exact ⟨rfl, rfl, rfl⟩

/-- Settles O59: no arm of `exec` ends otherwise, and each takes the cycles of its row. -/
theorem noInstructionStops : Obligations.NoInstructionStops := by
  intro i s
  obtain ⟨r, t, n, hexec, hwritten, heffects, hcycles, hmin, hmax⟩ := exec_completes i s
  have ht : t.cycles = r.cycles + n := heffects.same.cycles_eq
  have hdraws : s.draws = r.draws := by rw [hwritten.same]
  exact ⟨t, hexec, by omega, by omega, hdraws ▸ heffects.draws⟩

end Sys2Proof.Machine
end

section
/-! PROOFS. Fetching from plain locations (R9, R69, R102), and the step that executes what was fetched. -/

namespace Sys2Proof.Machine

open Sys2Proof.Laws (complete)

/-! ### The state after some bytes were fetched -/

/-- The state after `n` bytes were fetched from plain locations at PC: PC past them, and the reads in the log. -/
def fetched (n : Nat) (s : State) : State :=
  { s with pc := s.pc + BitVec.ofNat 16 n, accesses := s.accesses ++ fetchLog s n }

@[simp] theorem fetched_zero (s : State) : fetched 0 s = s := by
  simp [fetched, fetchLog]

theorem word_add_ofNat_succ (w : Word) (n : Nat) : w + BitVec.ofNat 16 n + 1 = w + BitVec.ofNat 16 (n + 1) := by
  rw [BitVec.add_assoc, BitVec.ofNat_add]
  rfl

theorem fetch8_fetched {s : State} {n : Nat} (h : plainRead s (s.pc + BitVec.ofNat 16 n) = true) :
    fetch8 (fetched n s) = (byteAt s (s.pc + BitVec.ofNat 16 n), fetched (n + 1) s) := by
  have hread : memRead (fetched n s).pc (fetched n s) = _ := memRead_plain (s := fetched n s) h
  simp only [fetch8, hread]
  simp only [fetched, fetchLog, State.logAccess, State.setPc, word_add_ofNat_succ, List.append_assoc]
  rfl

theorem fetch8_plain {s : State} (h : plainRead s s.pc = true) : fetch8 s = (byteAt s s.pc, fetched 1 s) := by
  have hpc : s.pc + BitVec.ofNat 16 0 = s.pc := BitVec.add_zero _
  have hfetch := fetch8_fetched (s := s) (n := 0) (hpc.symm ▸ h)
  rwa [fetched_zero, hpc] at hfetch

/-- What has been read of the bytes at PC depends on the bytes and on PC alone. -/
theorem fetchLog_congr {s t : State} (hpc : t.pc = s.pc) (hbytes : SameBytes s t) (n : Nat) :
    fetchLog t n = fetchLog s n := by
  induction n with
  | zero => rfl
  | succ n ih => rw [fetchLog, fetchLog, ih, hpc, hbytes]

/-! ### Fetching an instruction -/

/-- The byte at PC + k is byte k of the encoding, and fetching reads it. -/
theorem BytesAtPc.byte {i : Instr} {s : State} (h : BytesAtPc i s) {k : Nat} {b : Byte}
    (hk : (encode i)[k]? = some b) :
    plainRead s (s.pc + BitVec.ofNat 16 k) = true ∧ byteAt s (s.pc + BitVec.ofNat 16 k) = b := by
  obtain ⟨hlt, -⟩ := List.getElem?_eq_some_iff.mp hk
  obtain ⟨hplain, hbyte⟩ := h k hlt
  exact ⟨hplain, Option.some_inj.mp (hbyte.trans hk)⟩

/-- Fetching gives the instruction whose bytes stand at PC (R9 steps 1 to 3). -/
theorem fetch_of_bytesAtPc {i : Instr} {s : State} (h : BytesAtPc i s) :
    fetch s = .ok (i, fetched (encode i).length s) := by
  obtain ⟨-, t, ht, hi⟩ := opcodeLookup i
  have hencode : encode i = opcodeOf i :: operandBytesOf i.operand := rfl
  generalize operandBytesOf i.operand = operands at hi hencode
  have hfetch {k : Nat} {b : Byte} (hk : (encode i)[k]? = some b) :
      fetch8 (fetched k s) = (b, fetched (k + 1) s) := by
    obtain ⟨hplain, hbyte⟩ := h.byte hk
    rw [fetch8_fetched hplain, hbyte]
  have hopcode : fetch8 s = (opcodeOf i, fetched 1 s) := by
    have hzero := hfetch (congrArg (·[0]?) hencode)
    rwa [fetched_zero] at hzero
  rw [hencode] at hfetch ⊢
  simp only [fetch, hopcode, ht]
  unfold complete at hi
  split at hi <;> cases hi
  case h_1 => rfl
  case h_2 low =>
    have hlow : fetch8 (fetched 1 s) = (low, fetched 2 s) := hfetch rfl
    rw [fetchOperands, hlow]
    rfl
  case h_3 low high =>
    have hlow : fetch8 (fetched 1 s) = (low, fetched 2 s) := hfetch rfl
    have hhigh : fetch8 (fetched 2 s) = (high, fetched 3 s) := hfetch rfl
    rw [fetchOperands, hlow, hhigh]
    rfl

theorem BytesAtPc.congr {i : Instr} {s t : State} (h : BytesAtPc i s) (hpc : t.pc = s.pc)
    (hmap : t.busMap = s.busMap) (hbytes : SameBytes s t) : BytesAtPc i t := by
  intro k hk
  rw [hpc, plainRead_eq_of_busMap_eq hmap, hbytes]
  exact h k hk

/-! ### The step -/

/-- A step that nothing diverts runs an instruction (R271 step 4). -/
theorem boundary_undisturbed {p : Params} {s : State} (h : Undisturbed p s) :
    boundary p s = runInstruction (actionStart (s.setAccesses [])) := by
  obtain ⟨hres, haec, hnone⟩ := h
  rw [boundary_resHigh p hres]
  exact action_instruction haec hnone

/-- What an instruction at PC starts from. -/
theorem fetched_actionStart (n : Nat) (s : State) :
    fetched n (actionStart (s.setAccesses [])) =
      { actionStart s with pc := s.pc + BitVec.ofNat 16 n, accesses := fetchLog s n } := by
  have hlog : fetchLog (actionStart (s.setAccesses [])) n = fetchLog s n :=
    fetchLog_congr (s := s) (t := actionStart (s.setAccesses [])) rfl (fun _ => rfl) n
  rw [fetched, hlog]
  rfl

theorem boundary_of_bytesAtPc {p : Params} {i : Instr} {s : State} (h : Undisturbed p s) (hi : BytesAtPc i s) :
    boundary p s = exec i { actionStart s with
      pc := s.pc + BitVec.ofNat 16 (encode i).length, accesses := fetchLog s (encode i).length } := by
  have hstart : BytesAtPc i (actionStart (s.setAccesses [])) := hi.congr rfl rfl fun _ => rfl
  rw [boundary_undisturbed h, runInstruction, fetch_of_bytesAtPc hstart, fetched_actionStart]

/-- Settles O7: the fetch of the step gives the instruction whose bytes stand at PC. -/
theorem stepRunsTheDecodedInstruction : Obligations.StepRunsTheDecodedInstruction :=
  fun _ _ _ hi => ⟨fun _ h => boundary_of_bytesAtPc h hi, fun h => boundary_of_bytesAtPc h hi⟩

/-- Fetching at an undocumented byte is refused (R125). -/
theorem runInstruction_undocumented {s : State} (hplain : plainRead s s.pc = true)
    (hop : undocumented (byteAt s s.pc) = true) :
    runInstruction s = .refused (.undocumentedOpcode (byteAt s s.pc)) := by
  have hnone : decodeOpcode (byteAt s s.pc) = none := by
    rw [← Option.isNone_iff_eq_none, decodeOpcode_isNone_eq_undocumented, hop]
  simp only [runInstruction, fetch, fetch8_plain hplain, hnone]

/-- Settles O6: the opcode map against the list of R125 byte by byte, and the refusal at the fetch. -/
theorem undocumentedOpcodesAreRefused : Obligations.UndocumentedOpcodesAreRefused := by
  refine ⟨decodeOpcode_isNone_eq_undocumented, fun s h hplain hop => ?_⟩
  exact (boundary_undisturbed h).trans (runInstruction_undocumented (s := actionStart (s.setAccesses [])) hplain hop)

end Sys2Proof.Machine
end

section
/-! PROOFS. What a step can do (R271), said once: the cases of a boundary, and what neither an instruction nor an entry
sequence touches. -/

namespace Sys2Proof.Machine

/-! ### What an instruction does not touch -/

/-- From `s` on, memory kept its form, inputs were used up in order, no free value was used twice, and the hidden state
and the lines are as they were. -/
structure Continues (s t : State) : Prop where
  draws : s.draws ≤ t.draws
  portIn : t.portIn <:+ s.portIn
  wf : s.mem.wf = true → t.mem.wf = true
  busMap : t.busMap = s.busMap
  lines : t.lines = s.lines
  nmiPending : t.nmiPending = s.nmiPending
  nmiPrev : t.nmiPrev = s.nmiPrev
  afterEntry : t.afterEntry = s.afterEntry
  afterReset : t.afterReset = s.afterReset
  resCycles : t.resCycles = s.resCycles

theorem Continues.trans {s t u : State} (h : Continues s t) (k : Continues t u) : Continues s u :=
  ⟨h.draws.trans k.draws, k.portIn.trans h.portIn, fun w => k.wf (h.wf w), k.busMap.trans h.busMap,
    k.lines.trans h.lines, k.nmiPending.trans h.nmiPending, k.nmiPrev.trans h.nmiPrev,
    k.afterEntry.trans h.afterEntry, k.afterReset.trans h.afterReset, k.resCycles.trans h.resCycles⟩

theorem Effects.continues {l : List Word} {s t : State} (h : Effects l s t) : Continues s t :=
  ⟨h.draws, h.portIn, h.wf, h.same.busMap_eq, h.same.lines_eq, h.same.nmiPending_eq, h.same.nmiPrev_eq,
    h.same.afterEntry_eq, h.same.afterReset_eq, h.same.resCycles_eq⟩

/-- What differs in registers, flags, the I remembered and the time alone. -/
theorem continues_of_registers {s r : State}
    (h : r = { s with
      a := r.a, x := r.x, y := r.y, sp := r.sp, pc := r.pc, p := r.p, iDelayed := r.iDelayed, cycles := r.cycles }) :
    Continues s r := by
  rw [h]
  exact ⟨le_refl _, List.suffix_refl _, id, rfl, rfl, rfl, rfl, rfl, rfl, rfl⟩

theorem takeException_continues (vector : Word) (brk setsI : Bool) (s : State) :
    Continues s (takeException vector brk setsI s) := by
  have heffects := takeException_effects vector brk setsI s
  exact (continues_of_registers rfl).trans heffects.continues

theorem fetch_continues {s : State} {f : Instr × State} (h : fetch s = .ok f) : Continues s f.2 :=
  (continues_of_registers rfl).trans (fetch_effects h).continues

theorem exec_continues {i : Instr} {s t : State} (h : exec i s = .next t) :
    Continues s t ∧ s.cycles + 2 ≤ t.cycles := by
  obtain ⟨r, u, n, hexec, hwritten, heffects, hcycles, hmin, -⟩ := exec_completes i s
  obtain rfl : u = t := Host.Outcome.next.inj (hexec.symm.trans h)
  have hr : Continues s (r.tick n) := (continues_of_registers hwritten.same).trans (continues_of_registers rfl)
  have hu : u.cycles = r.cycles + n := heffects.same.cycles_eq
  exact ⟨hr.trans heffects.continues, by omega⟩

/-- An instruction that is not CLI, SEI or PLP leaves the I remembered as it was. -/
theorem exec_iDelayed {i : Instr} {s t : State} (h : exec i s = .next t) (hi : ¬delaysMask i) :
    t.iDelayed = s.iDelayed := by
  obtain ⟨r, u, n, hexec, hwritten, heffects, -⟩ := exec_completes i s
  obtain rfl : u = t := Host.Outcome.next.inj (hexec.symm.trans h)
  exact heffects.same.iDelayed_eq.trans (hwritten.iDelayed.resolve_left hi)

/-- CLI, SEI and PLP remember the I from before (R272). -/
theorem exec_iDelayed_of_delaysMask {i : Instr} {s t : State} (h : exec i s = .next t) (hi : delaysMask i) :
    t.iDelayed = some s.p.i := by
  obtain hm | hm | hm := hi
  case inl =>
    obtain rfl := eq_of_mnemonic_implied .cli hm rfl
    rw [exec_cli] at h
    cases h
    rfl
  case inr.inl =>
    obtain rfl := eq_of_mnemonic_implied .sei hm rfl
    rw [exec_sei] at h
    cases h
    rfl
  case inr.inr =>
    obtain rfl := eq_of_mnemonic_implied .plp hm rfl
    rw [exec_plp] at h
    cases h
    rfl

theorem runInstruction_cases {s t : State} (h : runInstruction s = .next t) :
    ∃ f, fetch s = .ok f ∧ exec f.1 f.2 = .next t := by
  unfold runInstruction at h
  split at h
  · cases h
  · exact ⟨_, ‹_›, h⟩

theorem runInstruction_continues {s t : State} (h : runInstruction s = .next t) :
    Continues s t ∧ s.cycles + 2 ≤ t.cycles := by
  obtain ⟨f, hfetch, hexec⟩ := runInstruction_cases h
  obtain ⟨hcontinues, hcycles⟩ := exec_continues hexec
  have hf : f.2.cycles = s.cycles := (fetch_effects hfetch).same.cycles_eq
  exact ⟨(fetch_continues hfetch).trans hcontinues, by omega⟩

/-! ### Entry sequences -/

/-- The state right after an entry sequence that an action takes (R273, R275). -/
def entered (vector : Word) (setsI : Bool) (s : State) : State :=
  (takeException vector false setsI s).setAfterEntry true

section
variable (vector : Word) (setsI : Bool) (s : State)

theorem entered_same :
    SameButStores
      { s with
        sp := s.sp - 3, p := { s.p with i := s.p.i || setsI }, afterEntry := true
        pc := (entered vector setsI s).pc, cycles := s.cycles + 7 }
      (entered vector setsI s) := by
  have h := takeException_same vector false setsI s
  unfold SameButStores at h ⊢
  rw [entered, h]
  rfl

theorem entered_continues :
    Continues (s.setAfterEntry true) (entered vector setsI s) := by
  obtain ⟨hdraws, hport, hwf, hmap, hlines, hpending, hprev, -, hreset, hres⟩ :=
    takeException_continues vector false setsI s
  exact ⟨hdraws, hport, hwf, hmap, hlines, hpending, hprev, rfl, hreset, hres⟩

theorem entered_cycles : (entered vector setsI s).cycles = s.cycles + 7 :=
  (entered_same vector setsI s).cycles_eq

theorem entered_iDelayed : (entered vector setsI s).iDelayed = s.iDelayed :=
  (entered_same vector setsI s).iDelayed_eq

end

/-! ### Actions -/

/-- Every action that gives a next state is the entry of an NMI, that of an IRQ, or an instruction where neither is
due; `action_cases` with the entries named. -/
theorem action_outcomes {p : Params} {s t : State} (h : action p s = .next t) :
    (examinesInterrupts p s = true ∧ nmiSeen s = true ∧
      t = entered nmiVector p.nmiSetsI ((actionStart s).setNmiPending false)) ∨
    (examinesInterrupts p s = true ∧ nmiSeen s = false ∧ (currentLines s).irqLow = true ∧ effectiveI p s = false ∧
      t = entered irqVector true (actionStart s)) ∨
    ((examinesInterrupts p s = true →
        nmiSeen s = false ∧ ((currentLines s).irqLow = false ∨ effectiveI p s = true)) ∧
      runInstruction (actionStart s) = .next t) :=
  (action_cases h).2

/-- What an action leaves of the inputs, of the free values, of memory's form and of the marks, whatever it is. -/
structure Acted (s t : State) : Prop where
  draws : s.draws ≤ t.draws
  portIn : t.portIn <:+ s.portIn
  wf : s.mem.wf = true → t.mem.wf = true
  busMap : t.busMap = s.busMap
  lines : t.lines = s.lines.tail
  nmiPrev : t.nmiPrev = !(currentLines s).nmiLow
  afterReset : t.afterReset = false
  resCycles : t.resCycles = s.resCycles
  cycles : s.cycles + 2 ≤ t.cycles
  entry : t.afterEntry = true → t.iDelayed = none ∧ t.nmiPending = false

theorem action_acted {p : Params} {s t : State} (h : action p s = .next t) : Acted s t := by
  obtain ⟨-, -, rfl⟩ | ⟨-, hnmi, -, -, rfl⟩ | ⟨-, hrun⟩ := action_outcomes h
  case inl =>
    have hc := entered_continues nmiVector p.nmiSetsI ((actionStart s).setNmiPending false)
    have hcycles := entered_cycles nmiVector p.nmiSetsI ((actionStart s).setNmiPending false)
    rw [State.setNmiPending_cycles, actionStart_cycles] at hcycles
    exact ⟨hc.draws, hc.portIn, hc.wf, hc.busMap, hc.lines, hc.nmiPrev, hc.afterReset, hc.resCycles, by omega,
      fun _ => ⟨entered_iDelayed _ _ _, hc.nmiPending⟩⟩
  case inr.inl =>
    have hc := entered_continues irqVector true (actionStart s)
    have hcycles := entered_cycles irqVector true (actionStart s)
    rw [actionStart_cycles] at hcycles
    exact ⟨hc.draws, hc.portIn, hc.wf, hc.busMap, hc.lines, hc.nmiPrev, hc.afterReset, hc.resCycles, by omega,
      fun _ => ⟨entered_iDelayed _ _ _, hc.nmiPending.trans hnmi⟩⟩
  case inr.inr =>
    obtain ⟨hc, hcycles⟩ := runInstruction_continues hrun
    rw [actionStart_cycles] at hcycles
    have hentry : t.afterEntry = false := hc.afterEntry
    exact ⟨hc.draws, hc.portIn, hc.wf, hc.busMap, hc.lines, hc.nmiPrev, hc.afterReset, hc.resCycles, by omega,
      fun ht => absurd ht (by simp [hentry])⟩

/-! ### The reset sequence -/

/-- The state that the release of RES answers with (R300). -/
def released (ln : Lines) (s : State) : State :=
  (resetSequence ln.nmiLow (dropLines s)).tick ln.rdyHeld

theorem released_eq (ln : Lines) (s : State) :
    released ln s =
      (((read16 resetVector (resetRegisters ln.nmiLow (dropLines s))).2.setPc
        (read16 resetVector (resetRegisters ln.nmiLow (dropLines s))).1).tick 6).tick ln.rdyHeld := rfl

section
variable {ln : Lines} {s t : State} (h : t = released ln s)
include h

/-- The reset sequence leaves the register values of R300, PC from its vector, and the memory it found. -/
theorem released_same :
    SameButReads
      { resetRegisters ln.nmiLow s with
        lines := s.lines.tail, pc := t.pc, cycles := s.cycles + 6 + ln.rdyHeld } t := by
  have hread := read16_same resetVector (resetRegisters ln.nmiLow (dropLines s))
  subst h
  rw [released_eq]
  generalize read16 resetVector (resetRegisters ln.nmiLow (dropLines s)) = target at hread ⊢
  unfold SameButReads at hread ⊢
  rw [hread]
  rfl

theorem released_draws : s.draws ≤ t.draws := by
  have hregisters : s.draws ≤ (resetRegisters ln.nmiLow (dropLines s)).draws := Nat.le_add_right _ 4
  rw [h, released_eq, State.tick_draws, State.tick_draws, State.setPc_draws]
  exact hregisters.trans (read16_draws _ _)

theorem released_portIn : t.portIn <:+ s.portIn := by
  rw [h, released_eq, State.tick_portIn, State.tick_portIn, State.setPc_portIn]
  exact (read16_effects resetVector (resetRegisters ln.nmiLow (dropLines s))).portIn

end

/-! ### The cases of a boundary -/

/-- Every step that gives a next state is one of four: RES is low and nothing ran, RES is low and an action is
abandoned, RES is released, or an action runs. -/
theorem boundary_cases {p : Params} {s t : State} (h : boundary p s = .next t) :
    (0 < (currentLines s).resLow ∧ t = holdFor (currentLines s) (s.setAccesses [])) ∨
    (∃ u, 0 < (currentLines s).resLow ∧ action p (s.setAccesses []) = .next u ∧
      t = holdFor (currentLines s) (abandon (s.setAccesses []) u (u.accesses.take (currentLines s).resAfter))) ∨
    ((currentLines s).resLow = 0 ∧ 0 < s.resCycles ∧ t = released (currentLines s) (s.setAccesses [])) ∨
    (ResHigh s ∧ action p (s.setAccesses []) = .next t) := by
  by_cases hlow : 0 < (currentLines s).resLow
  case pos =>
    rw [boundary_resLow p hlow] at h
    obtain ⟨-, ht⟩ | ⟨u, -, -, hu, ht⟩ := holdReset_cases h
    · exact .inl ⟨hlow, ht⟩
    · exact .inr (.inl ⟨u, hlow, hu, ht⟩)
  case neg =>
    have hhigh : (currentLines s).resLow = 0 := Nat.eq_zero_of_not_pos hlow
    by_cases hres : 0 < s.resCycles
    · rw [boundary_release p hhigh hres] at h
      obtain ⟨-, -, ht⟩ := releaseReset_cases h
      exact .inr (.inr (.inl ⟨hhigh, hres, ht⟩))
    · have hhigh : ResHigh s := ⟨hhigh, Nat.eq_zero_of_not_pos hres⟩
      exact .inr (.inr (.inr ⟨hhigh, boundary_resHigh p hhigh ▸ h⟩))

end Sys2Proof.Machine
end

section
/-! PROOFS. The invariant of sound states, and what every step spends (R320). -/

namespace Sys2Proof.Machine

/-! ### Soundness -/

theorem sound_of_unmarked {t : State} (hwf : t.mem.wf = true) (hentry : t.afterEntry = false)
    (hreset : t.afterReset = false) : Sound t := by
  refine ⟨hwf, fun h => ?_, fun h => ?_⟩
  · rw [hentry] at h
    cases h
  · rw [hreset] at h
    cases h

theorem boundary_sound {p : Params} {s t : State} (hs : s.mem.wf = true) (h : boundary p s = .next t) : Sound t := by
  obtain ⟨-, ht⟩ | ⟨u, -, -, ht⟩ | ⟨-, -, ht⟩ | ⟨-, hact⟩ := boundary_cases h
  case inl =>
    rw [ht, holdFor_eq]
    exact sound_of_unmarked hs rfl rfl
  case inr.inl =>
    rw [ht, holdFor_eq]
    have hstored := replay_wf (u.accesses.take (currentLines s).resAfter) (s := s.setAccesses []) hs
    exact sound_of_unmarked hstored rfl rfl
  case inr.inr.inl =>
    have hsame := released_same ht
    refine ⟨hsame.mem_eq ▸ hs, fun hentry => ?_, fun _ => ?_⟩
    · rw [hsame.afterEntry_eq] at hentry
      cases hentry
    · exact ⟨by rw [hsame.p_eq]; rfl, hsame.nmiPending_eq, hsame.iDelayed_eq, hsame.afterEntry_eq, hsame.resCycles_eq⟩
  case inr.inr.inr =>
    have hacted := action_acted hact
    refine ⟨hacted.wf hs, hacted.entry, fun hreset => ?_⟩
    rw [hacted.afterReset] at hreset
    cases hreset

/-- Settles O8: by the cases of a boundary; an entry leaves the first mark, the release of RES the second, and nothing
else leaves any. -/
theorem everyStepKeepsSound : Obligations.EveryStepKeepsSound := by
  rintro s t ⟨hwf, -⟩ h
  exact boundary_sound hwf h

/-- Settles O9: the reset state lists no memory and is marked as right after reset alone. -/
theorem resetIsSound : Obligations.ResetIsSound :=
  ⟨Memory.wf_nil, nofun, fun _ => ⟨rfl, rfl, rfl, rfl, rfl⟩⟩

/-! ### Time and inputs -/

/-- Settles O11: by the cases of a boundary; a step with RES low takes the cycles of RES, the reset sequence six, and an
action two or more. -/
theorem stepsSpendTimeAndConsumeInputs : Obligations.StepsSpendTimeAndConsumeInputs := by
  intro s t h
  obtain ⟨hlow, ht⟩ | ⟨u, hlow, hact, ht⟩ | ⟨-, hres, ht⟩ | ⟨-, hact⟩ := boundary_cases h
  case inl =>
    rw [ht, holdFor_eq]
    refine ⟨?_, fun ⟨hhigh, _⟩ => ?_, le_refl _, rfl, rfl, List.suffix_refl _⟩
    · show s.cycles < s.cycles + (_ + _)
      omega
    · omega
  case inr.inl =>
    obtain ⟨hsame, -, -, -, -, hdraws⟩ :=
      abandon_stores (s.setAccesses []) u (u.accesses.take (currentLines s).resAfter)
    rw [ht, holdFor_eq]
    refine ⟨?_, fun ⟨hhigh, _⟩ => ?_, ?_, hsame.busMap_eq, congrArg List.tail hsame.lines_eq, List.drop_suffix _ _⟩
    · rw [hsame.cycles_eq]
      show s.cycles < s.cycles + _
      omega
    · omega
    · exact (action_acted hact).draws.trans hdraws.ge
  case inr.inr.inl =>
    have hsame := released_same ht
    have hdraws := released_draws ht
    have hport := released_portIn ht
    refine ⟨?_, fun ⟨_, hhigh⟩ => ?_, hdraws, hsame.busMap_eq, hsame.lines_eq, hport⟩
    · rw [hsame.cycles_eq]
      show s.cycles < s.cycles + 6 + _
      omega
    · omega
  case inr.inr.inr =>
    have hacted := action_acted hact
    have hcycles : s.cycles + 2 ≤ t.cycles := hacted.cycles
    exact ⟨by omega, fun _ => hcycles, hacted.draws, hacted.busMap, hacted.lines, hacted.portIn⟩

end Sys2Proof.Machine
end

section
/-! PROOFS. RES: held, falling into an action, and released (R279, R300). -/

namespace Sys2Proof.Machine

/-! ### RES is low -/

/-- Where no access of an action was performed before RES fell, the step only holds. -/
theorem holdReset_idle (p : Params) {ln : Lines} {s : State} (h : 0 < s.resCycles ∨ ln.resAfter = 0) :
    holdReset p ln s = .next (holdFor ln s) := by
  rw [holdReset, if_neg]
  omega

/-- Where some were, the action is abandoned after them. -/
theorem holdReset_abandon {p : Params} {ln : Lines} {s u : State} (hres : s.resCycles = 0) (hafter : 0 < ln.resAfter)
    (hu : action p s = .next u) :
    holdReset p ln s = .next (holdFor ln (abandon s u (u.accesses.take ln.resAfter))) := by
  rw [holdReset, if_pos ⟨hres, hafter⟩, hu]

/-- Settles O12: nothing was running, so the step is `holdFor` alone. -/
theorem resHoldsTheProcessor : Obligations.ResHoldsTheProcessor := by
  intro p s hlow hidle
  rw [boundary_resLow p hlow, holdReset_idle p (s := s.setAccesses []) hidle, holdFor_eq]
  rfl

/-! ### An abandoned action -/

theorem replayAccess_write {a : Access} (h : a.kind = .write) (s : State) :
    replayAccess s a = storeByte a.addr a.val s := by
  rw [replayAccess, h]

/-- The last of the accesses to write a location that stores leaves its byte there. -/
theorem replay_last_write {l pre post : List Access} {acc : Access} {s : State} (hl : l = pre ++ acc :: post)
    (hkind : acc.kind = .write) (hstores : stores s acc.addr = true)
    (hlast : ∀ b ∈ post, b.kind = .write → b.addr ≠ acc.addr) :
    byteAt (l.foldl replayAccess s) acc.addr = acc.val := by
  have hthere : stores (pre.foldl replayAccess s) acc.addr = true :=
    ((replay_same pre s).stores_eq acc.addr).trans hstores
  rw [hl, List.foldl_append, List.foldl_cons, replay_byteAt post _ _ hlast, replayAccess_write hkind,
    storeByte_byteAt, if_pos ⟨rfl, hthere⟩]

theorem holdFor_byteAt (ln : Lines) (s : State) (a : Word) : byteAt (holdFor ln s) a = byteAt s a := by
  rw [holdFor_eq]
  rfl

/-- Settles O13: the step replays the first `resAfter` accesses of the action; a byte is that of the last of them to
write it. -/
theorem abandonedActionLeavesAPrefix : Obligations.AbandonedActionLeavesAPrefix := by
  intro p s u hlow hres hafter hu
  generalize hperformed : u.accesses.take (currentLines s).resAfter = performed
  have hstep : boundary p s = .next (holdFor (currentLines s) (abandon (s.setAccesses []) u performed)) := by
    rw [boundary_resLow p hlow, holdReset_abandon (s := s.setAccesses []) hres hafter hu, hperformed]
  obtain ⟨hsame, -, -, -, haccesses, -⟩ := abandon_stores (s.setAccesses []) u performed
  have hbyte (a : Word) : byteAt (holdFor (currentLines s) (abandon (s.setAccesses []) u performed)) a =
      byteAt (performed.foldl replayAccess (s.setAccesses [])) a := by
    rw [holdFor_byteAt, abandon_byteAt]
  refine ⟨_, hstep, ?_⟩
  rw [holdFor_eq] at hbyte ⊢
  refine ⟨haccesses, congrArg List.tail hsame.lines_eq, ?resCycles, fun a hkept => ?kept,
    fun pre acc post hl hkind hstores hlast => ?stored⟩
  case resCycles =>
    show (abandon _ u performed).resCycles + _ = _
    rw [hsame.resCycles_eq, State.setAccesses_resCycles, hres, Nat.zero_add]
  case kept =>
    rw [hbyte]
    exact replay_byteAt performed (s.setAccesses []) a (haccesses ▸ hkept)
  case stored =>
    rw [hbyte]
    exact replay_last_write (haccesses.symm.trans hl) hkind hstores hlast

/-! ### RES is released -/

/-- After two cycles or more of RES, and with the bus left alone, the reset sequence runs. -/
theorem boundary_released (p : Params) {s : State} (hhigh : (currentLines s).resLow = 0) (hres : 2 ≤ s.resCycles)
    (haec : (currentLines s).aecTakesBus = false) :
    boundary p s = .next (released (currentLines s) (s.setAccesses [])) := by
  have hlong : ¬(s.setAccesses []).resCycles < 2 := Nat.not_lt.mpr hres
  rw [boundary_release p hhigh (by omega), releaseReset, if_neg hlong, haec]
  rfl

section
variable {ln : Lines} {s t : State} (h : t = released ln s)
include h

theorem released_pc : t.pc = (read16 resetVector (resetRegisters ln.nmiLow (dropLines s))).1 := by
  rw [h, released_eq, State.tick_pc, State.tick_pc, State.setPc_pc]

/-- The reset sequence makes two reads, of its vector, the low byte's first (R300, R69). -/
theorem released_accesses :
    t.accesses = s.accesses ++ [⟨.read, 0xFFFC, lowByte t.pc⟩, ⟨.read, 0xFFFD, highByte t.pc⟩] := by
  rw [released_pc h, h, released_eq, State.tick_accesses, State.tick_accesses, State.setPc_accesses]
  exact read16_accesses resetVector (resetRegisters ln.nmiLow (dropLines s))

/-- A vector in plain locations gives the word stored there (R44). -/
theorem released_pc_plain (hlow : plainRead s 0xFFFC = true) (hhigh : plainRead s 0xFFFD = true) :
    t.pc = mkWord (byteAt s 0xFFFD) (byteAt s 0xFFFC) := by
  have hword := read16_plain (addr := resetVector) (s := resetRegisters ln.nmiLow (dropLines s)) hlow hhigh
  rw [released_pc h, hword, byteAt_of_external _ (by decide) (by decide), byteAt_of_external _ (by decide) (by decide),
    byteAt_of_external _ (by decide) (by decide), byteAt_of_external _ (by decide) (by decide)]
  rfl

end

/-- Settles O14: the state is what `released_same` says of the reset sequence, and its PC and accesses are those of
reading the vector. -/
theorem releaseRunsTheResetSequence : Obligations.ReleaseRunsTheResetSequence := by
  intro p s hhigh hres haec
  generalize ht : released (currentLines s) (s.setAccesses []) = t
  have hstep : boundary p s = .next t := by rw [boundary_released p hhigh hres haec, ht]
  have hsame := released_same ht.symm
  have hlog := released_accesses ht.symm
  have hword := released_pc_plain ht.symm
  refine ⟨t, hstep, by rw [hsame.p_eq]; rfl, hword, hlog, hsame.nmiPending_eq, hsame.nmiPrev_eq, hsame.mem_eq,
    hsame.resCycles_eq, hsame.iDelayed_eq, hsame.afterEntry_eq, hsame.afterReset_eq, hsame.sp_eq, hsame.ddr_eq,
    hsame.por_eq, hsame.lines_eq, ?cycles⟩
  case cycles =>
    rw [hsame.cycles_eq, Nat.add_right_comm]
    rfl

/-- Settles O15: a pulse of one cycle fails the first test of `releaseReset`; AEC fails the second, or that of
`action`. -/
theorem inputsOutsideTheModelAreRefused : Obligations.InputsOutsideTheModelAreRefused := by
  refine ⟨fun p s hhigh hres => ?short, fun p s hhigh haec => ?action, fun p s hhigh hres haec => ?release⟩
  case short =>
    have hshort : (s.setAccesses []).resCycles < 2 := by rw [State.setAccesses_resCycles, hres]; decide
    rw [boundary_release p hhigh (by omega), releaseReset, if_pos hshort]
  case action => rw [boundary_resHigh p hhigh, action_busTaken p (s := s.setAccesses []) haec]
  case release =>
    have hlong : ¬(s.setAccesses []).resCycles < 2 := Nat.not_lt.mpr hres
    rw [boundary_release p hhigh (by omega), releaseReset, if_neg hlong, haec]
    rfl

/-! ### The first instruction -/

/-- Right after reset no NMI edge is seen and every IRQ is masked (R43, D13). -/
theorem undisturbed_after_release {p : Params} {s t : State} (hhigh : (currentLines s).resLow = 0)
    (hres : 0 < s.resCycles) (hstep : boundary p s = .next t) (ht : ResHigh t)
    (haec : (currentLines t).aecTakesBus = false) : Undisturbed p t ∧ nmiSeen t = false := by
  obtain ⟨hlow, -⟩ | ⟨-, hlow, -⟩ | ⟨-, -, ht'⟩ | ⟨⟨-, hnone⟩, -⟩ := boundary_cases hstep
  case inl => omega
  case inr.inl => omega
  case inr.inr.inr => omega
  have hsame := released_same ht'
  have hreset : t.afterReset = true := hsame.afterReset_eq
  have hdelayed : t.iDelayed = none := hsame.iDelayed_eq
  have hi : t.p.i = true := by rw [hsame.p_eq]; rfl
  have hnmi : nmiSeen t = false := by rw [nmiSeen, hreset]; rfl
  have hmasked : effectiveI p t = true := by simp [effectiveI, hdelayed, hi]
  exact ⟨⟨ht, haec, fun _ => ⟨hnmi, .inr hmasked⟩⟩, hnmi⟩

/-- Settles O60: the marks that the reset sequence leaves keep both interrupts from the boundary after it. -/
theorem theInstructionAtTheVectorRunsFirst : Obligations.TheInstructionAtTheVectorRunsFirst := by
  intro p i s t hhigh hres hstep ht haec hi
  obtain ⟨hundisturbed, hnmi⟩ := undisturbed_after_release hhigh hres hstep ht haec
  have hrun := boundary_of_bytesAtPc hundisturbed hi
  refine ⟨hrun, ?_⟩
  obtain ⟨r, u, n, hexec, -⟩ := exec_completes i { actionStart t with
    pc := t.pc + BitVec.ofNat 16 (encode i).length, accesses := fetchLog t (encode i).length }
  obtain ⟨hcontinues, -⟩ := exec_continues hexec
  exact ⟨u, hrun.trans hexec, hcontinues.nmiPending.trans hnmi, hcontinues.nmiPrev⟩

end Sys2Proof.Machine
end

section
/-! PROOFS. Interrupt entries at a boundary (R271 to R275), and the I that the boundary after them sees (R272). -/

namespace Sys2Proof.Machine

/-! ### The entries -/

/-- The vectors stand above the stack page, so the pushes of an entry leave them (R260). -/
theorem entered_pcFromVector {vector : Word} (hvector : 512 ≤ vector.toNat) (hnext : 512 ≤ (vector + 1).toNat)
    (setsI : Bool) (s : State) : PcFromVector vector s (entered vector setsI s) :=
  takeException_pcFromVector (ne_stackAddr_of_le hvector) (ne_stackAddr_of_le hnext) false setsI s

theorem entered_accesses (vector : Word) (setsI : Bool) (s : State) :
    (entered vector setsI s).accesses =
      s.accesses ++ frameLog s.pc (statusByte s.p false) vector s (entered vector setsI s) :=
  takeException_accesses vector false setsI s

theorem entered_pushedFrame (vector : Word) (setsI : Bool) (s : State) :
    PushedFrame s.pc (statusByte s.p false) s (entered vector setsI s) :=
  takeException_pushedFrame vector false setsI s

/-- The state right after an entry, said of the state before it: the vector's word in PC, the frame on the stack, and
the accesses that did both. -/
theorem entered_spec {vector : Word} (hvector : 512 ≤ vector.toNat) (hnext : 512 ≤ (vector + 1).toNat) (setsI : Bool)
    {s t : State} (ht : t = entered vector setsI s) :
    SameButStores
        { s with
          sp := s.sp - 3, p := { s.p with i := s.p.i || setsI }, afterEntry := true
          pc := t.pc, cycles := s.cycles + 7 } t ∧
      t.accesses = s.accesses ++ frameLog s.pc (statusByte s.p false) vector s t ∧
      PushedFrame s.pc (statusByte s.p false) s t ∧ PcFromVector vector s t := by
  subst ht
  exact ⟨entered_same vector setsI s, entered_accesses vector setsI s, entered_pushedFrame vector setsI s,
    entered_pcFromVector hvector hnext setsI s⟩

/-- Settles O16: the step is `entered` through the NMI vector, from the start of the action with the pending bit
cleared. -/
theorem nmiEntryAtABoundary : Obligations.NmiEntryAtABoundary := by
  intro p s hhigh hexamines haec hnmi
  generalize ht : entered nmiVector p.nmiSetsI ((actionStart (s.setAccesses [])).setNmiPending false) = t
  have hstep : boundary p s = .next t := by
    rw [boundary_resHigh p hhigh, action_nmi (s := s.setAccesses []) hexamines haec hnmi, ← ht]
    rfl
  obtain ⟨hsame, hlog, hframe, hpc⟩ := entered_spec (by decide) (by decide) p.nmiSetsI ht.symm
  exact ⟨t, hstep, hsame, hlog, hframe, hpc⟩

/-- Settles O17: the step is `entered` through the IRQ vector, from the start of the action. -/
theorem irqEntryAtABoundary : Obligations.IrqEntryAtABoundary := by
  intro p s hhigh hexamines haec hnmi hirq hmask
  generalize ht : entered irqVector true (actionStart (s.setAccesses [])) = t
  have hstep : boundary p s = .next t := by
    rw [boundary_resHigh p hhigh, action_irq (s := s.setAccesses []) hexamines haec hnmi hirq hmask, ← ht]
    rfl
  obtain ⟨hsame, hlog, hframe, hpc⟩ := entered_spec (by decide) (by decide) true ht.symm
  rw [Bool.or_true, actionStart, nmiSeen_setAccesses, hnmi] at hsame
  exact ⟨t, hstep, hsame, hlog, hframe, hpc⟩

/-- Settles O18: of the three outcomes of an action the two entries leave the mark, and the conditions of the third
exclude theirs. -/
theorem entriesExactlyWhenDue : Obligations.EntriesExactlyWhenDue := by
  intro p s t hhigh hstep
  rw [boundary_resHigh p hhigh] at hstep
  obtain ⟨hexamines, hnmi, rfl⟩ | ⟨hexamines, -, hirq, hmask, rfl⟩ | ⟨hnone, hrun⟩ := action_outcomes hstep
  case inl => exact iff_of_true rfl ⟨hexamines, .inl hnmi⟩
  case inr.inl => exact iff_of_true rfl ⟨hexamines, .inr ⟨hirq, hmask⟩⟩
  case inr.inr =>
    have hentry : t.afterEntry = false := (runInstruction_continues hrun).1.afterEntry
    refine iff_of_false (by simp [hentry]) ?_
    rintro ⟨hexamines, hdue⟩
    obtain ⟨hnmi, hmasked⟩ := hnone hexamines
    obtain hseen | ⟨hlow, hclear⟩ := hdue
    · exact absurd hseen (by simp [nmiSeen_setAccesses] at hnmi; simp [hnmi])
    · obtain hidle | hset := hmasked
      · exact absurd hlow (by simp at hidle; simp [hidle])
      · exact absurd hclear (by simp at hset; simp [hset])

/-! ### The I that the interrupt logic sees -/

theorem effectiveI_of_none (p : Params) {t : State} (h : t.iDelayed = none) : effectiveI p t = t.p.i := by
  rw [effectiveI, h, Option.getD_none, ite_self]

theorem effectiveI_of_latency_zero {p : Params} (h : p.irqMaskLatency = false) (t : State) :
    effectiveI p t = t.p.i := by
  rw [effectiveI, h]
  rfl

theorem effectiveI_of_some {p : Params} {t : State} {b : Bool} (hp : p.irqMaskLatency = true)
    (h : t.iDelayed = some b) : effectiveI p t = b := by
  rw [effectiveI, hp, h]
  rfl

/-- After an instruction at a boundary that left no I remembered (R272). -/
theorem effectiveI_of_exec (p : Params) {i : Instr} {s t : State} (hexec : exec i s = .next t)
    (hs : s.iDelayed = none) :
    (p.irqMaskLatency = true ∧ delaysMask i ∧ effectiveI p t = s.p.i) ∨
      (¬(p.irqMaskLatency = true ∧ delaysMask i) ∧ effectiveI p t = t.p.i) := by
  by_cases hi : delaysMask i
  case pos =>
    cases hp : p.irqMaskLatency with
    | true => exact .inl ⟨rfl, hi, effectiveI_of_some hp (exec_iDelayed_of_delaysMask hexec hi)⟩
    | false => exact .inr ⟨nofun, effectiveI_of_latency_zero hp t⟩
  case neg =>
    exact .inr ⟨fun h => hi h.2, effectiveI_of_none p ((exec_iDelayed hexec hi).trans hs)⟩

/-- The I that the boundary after any step sees, by the cases of the step. -/
theorem effectiveI_after_boundary {p : Params} {s t : State} (hstep : boundary p s = .next t) :
    effectiveI p t = t.p.i ∨
      (p.irqMaskLatency = true ∧ Undisturbed p s ∧ effectiveI p t = s.p.i ∧
        ∃ f, fetch (actionStart (s.setAccesses [])) = .ok f ∧ delaysMask f.1) := by
  obtain ⟨-, ht⟩ | ⟨u, -, -, ht⟩ | ⟨-, -, ht⟩ | ⟨hhigh, hact⟩ := boundary_cases hstep
  case inl => exact .inl (effectiveI_of_none p (by rw [ht, holdFor_eq]))
  case inr.inl => exact .inl (effectiveI_of_none p (by rw [ht, holdFor_eq]))
  case inr.inr.inl => exact .inl (effectiveI_of_none p (released_same ht).iDelayed_eq)
  obtain ⟨-, -, rfl⟩ | ⟨-, -, -, -, rfl⟩ | ⟨hnone, hrun⟩ := action_outcomes hact
  case inr.inr.inr.inl => exact .inl (effectiveI_of_none p (entered_iDelayed _ _ _))
  case inr.inr.inr.inr.inl => exact .inl (effectiveI_of_none p (entered_iDelayed _ _ _))
  obtain ⟨f, hfetch, hexec⟩ := runInstruction_cases hrun
  have hfetched := (fetch_effects hfetch).same
  have hi : f.2.p.i = s.p.i := congrArg Status.i hfetched.p_eq
  obtain ⟨hp, hdelays, heff⟩ | ⟨-, heff⟩ := effectiveI_of_exec p hexec hfetched.iDelayed_eq
  · exact .inr ⟨hp, ⟨hhigh, (action_cases hact).1, hnone⟩, heff.trans hi, f, hfetch, hdelays⟩
  · exact .inl heff

/-- Settles O19: an instruction at PC by what it leaves remembered, and any step by its cases. -/
theorem onlyCliSeiPlpDelayTheMask : Obligations.OnlyCliSeiPlpDelayTheMask := by
  refine ⟨fun p i s hundisturbed hi => ?_, fun p s t => effectiveI_after_boundary⟩
  have hrun := boundary_of_bytesAtPc hundisturbed hi
  obtain ⟨r, t, n, hexec, -⟩ := exec_completes i { actionStart s with
    pc := s.pc + BitVec.ofNat 16 (encode i).length, accesses := fetchLog s (encode i).length }
  refine ⟨t, hrun.trans hexec, ?_⟩
  obtain ⟨hp, hdelays, heff⟩ | ⟨hnot, heff⟩ := effectiveI_of_exec p hexec rfl
  · exact heff.trans (if_pos ⟨hp, hdelays⟩).symm
  · exact heff.trans (if_neg hnot).symm

end Sys2Proof.Machine
end

section
/-! PROOFS. The byte of P (R31 to R34), and what a pull finds after a push (R24, R160, R233, R250). -/

namespace Sys2Proof.Machine

/-! ### The byte of P -/

theorem statusByte_toNat (p : Status) (b : Bool) :
    (statusByte p b).toNat = p.n.toNat * 128 + p.v.toNat * 64 + 32 + b.toNat * 16 + p.d.toNat * 8 + p.i.toNat * 4 +
      p.z.toNat * 2 + p.c.toNat := by
  have hn := p.n.toNat_le; have hv := p.v.toNat_le; have hb := b.toNat_le; have hd := p.d.toNat_le
  have hi := p.i.toNat_le; have hz := p.z.toNat_le; have hc := p.c.toNat_le
  rw [statusByte, BitVec.toNat_ofNat, Nat.mod_eq_of_lt]
  omega

/-- Pulling a byte forgets its bits 5 and 4; pushing sets bit 5 and gives bit 4 (R33, R34). -/
theorem statusByte_statusOfByte (v : Byte) (b : Bool) :
    statusByte (statusOfByte v) b = (v &&& 0xCF) ||| 0x20 ||| (if b then 0x10 else 0x00) := by
  have hall : ∀ n < 256, ∀ b : Bool, statusByte (statusOfByte (BitVec.ofNat 8 n)) b =
      (BitVec.ofNat 8 n &&& 0xCF) ||| 0x20 ||| (if b then 0x10 else 0x00) := by
    decide +kernel
  simpa using hall v.toNat v.isLt b

/-- Settles O23: the weights of `statusByte`, and the two round trips. -/
theorem statusByteLayout : Obligations.StatusByteLayout :=
  ⟨statusByte_toNat, statusOfByte_statusByte, statusByte_statusOfByte⟩

/-! ### Bytes and registers -/

section
variable (s : State) (a : Word)
@[simp] theorem byteAt_setA (v : Byte) : byteAt (s.setA v) a = byteAt s a := rfl
@[simp] theorem byteAt_setSp (v : Byte) : byteAt (s.setSp v) a = byteAt s a := rfl
@[simp] theorem byteAt_setPc (w : Word) : byteAt (s.setPc w) a = byteAt s a := rfl
@[simp] theorem byteAt_setP (p : Status) : byteAt (s.setP p) a = byteAt s a := rfl
@[simp] theorem byteAt_tick (n : Nat) : byteAt (s.tick n) a = byteAt s a := rfl
end

/-! ### One byte pushed and pulled -/

/-- Settles O25: PHP is a push of the status byte, PLP a pull into P with the old I remembered. -/
theorem phpPushesAndPlpPulls : Obligations.PhpPushesAndPlpPulls := by
  refine ⟨rfl, rfl, fun s => ⟨_, exec_php s, ((push_effects _ s).tick 3).same, push_stored _ s, push_accesses s _⟩,
    fun s => ⟨_, (pull s).1, exec_plp s, ?same, pull_accesses s, pull_plain⟩⟩
  case same => exact ((((pull_effects s).setP _).setIDelayed (some s.p.i)).tick 4).sameButReads

section
variable {s : State}

/-- A stack in RAM is one whatever is stored and whatever the registers hold. -/
theorem stackIsRam_of_busMap_eq {t : State} (h : StackIsRam s) (hmap : t.busMap = s.busMap) : StackIsRam t := by
  intro sp
  rw [← h sp, busKind, busKind, hmap]

/-- On a stack in RAM, the byte pulled after a push is the byte pushed, SP is back, and no other byte changed. -/
theorem pull_push (h : StackIsRam s) (v : Byte) (n : Nat) :
    (pull ((push v s).tick n)).1 = v ∧ Effects [stackAddr s.sp] (s.tick n) (pull ((push v s).tick n)).2 := by
  have hsp : ((push v s).tick n).sp + 1 = s.sp := by
    rw [State.tick_sp, push_sp]
    exact BitVec.sub_add_cancel _ _
  have hram : StackIsRam ((push v s).tick n) := push_stackIsRam h v
  constructor
  case left =>
    rw [pull_plain (stackAddr_plain hram _), hsp]
    exact (push_byteAt h v _).trans (if_pos rfl)
  case right =>
    have hpull := pull_effects ((push v s).tick n)
    rw [hsp] at hpull
    exact (((push_effects v s).tick n).setSp s.sp).trans hpull

end

/-- Settles O26: by `pull_push`, with N and Z from the byte, or the flags from the status byte. -/
theorem pushThenPullRestores : Obligations.PushThenPullRestores := by
  refine ⟨fun s h => ⟨_, _, exec_pha s, exec_pla _, ?pha⟩, fun s h => ⟨_, _, exec_php s, exec_plp _, ?plp⟩,
    fun s h => ⟨_, _, exec_php s, exec_pla _, ?pla⟩, fun s => ⟨_, _, exec_tsx s, exec_txs _, rfl⟩⟩
  case pha =>
    obtain ⟨hbyte, heffects⟩ := pull_push h s.a 3
    have hp : ((push s.a s).tick 3).p = s.p := (push_same s.a s).p_eq
    rw [hbyte, hp]
    have hall := ((heffects.setA s.a).setP (nzOf s.p s.a)).tick 4
    refine ⟨?_, fun a ha => ?_⟩
    · simpa only [State.setA, State.setP, State.tick] using hall.same
    · simpa using hall.bytes a (by simpa using ha)
  case plp =>
    obtain ⟨hbyte, heffects⟩ := pull_push h (statusByte s.p true) 3
    have hp : ((push (statusByte s.p true) s).tick 3).p = s.p := (push_same _ s).p_eq
    rw [hbyte, hp, statusOfByte_statusByte]
    have hall := ((heffects.setP s.p).setIDelayed (some s.p.i)).tick 4
    simpa only [State.setP, State.setIDelayed, State.tick] using hall.same
  case pla =>
    obtain ⟨hbyte, heffects⟩ := pull_push h (statusByte s.p true) 3
    rw [State.tick_a, State.setP_a, State.setA_a, State.tick_sp, State.setP_sp, State.setA_sp, hbyte]
    exact ⟨rfl, heffects.same.sp_eq⟩

/-! ### Many bytes pushed and pulled -/

theorem pushAll_concat (vs : List Byte) (v : Byte) (s : State) : pushAll (vs ++ [v]) s = push v (pushAll vs s) := by
  simp [pushAll]

theorem pushAll_stackIsRam {s : State} (h : StackIsRam s) (vs : List Byte) : StackIsRam (pushAll vs s) := by
  induction vs generalizing s with
  | nil => exact h
  | cons v vs ih => exact ih (push_stackIsRam h v)

theorem pushAll_sp (vs : List Byte) (s : State) : (pushAll vs s).sp = s.sp - BitVec.ofNat 8 vs.length := by
  induction vs using List.reverseRecOn with
  | nil => exact (BitVec.sub_zero _).symm
  | append_singleton vs v ih =>
    rw [pushAll_concat, push_sp, ih, List.length_append, List.length_singleton, BitVec.ofNat_add, BitVec.sub_sub]
    rfl

theorem pullMany_sp (n : Nat) (s : State) : (pullMany n s).2.sp = s.sp + BitVec.ofNat 8 n := by
  induction n generalizing s with
  | zero => exact (BitVec.add_zero _).symm
  | succ n ih =>
    rw [pullMany, ih, pull_sp, BitVec.add_assoc, Nat.add_comm, BitVec.ofNat_add]
    rfl

/-- On a stack in RAM, pulls give the bytes above SP, upwards. -/
theorem pullMany_bytes {s : State} (h : StackIsRam s) (n : Nat) :
    (pullMany n s).1 = (List.range n).map fun k => byteAt s (stackAddr (s.sp + BitVec.ofNat 8 (k + 1))) := by
  induction n generalizing s with
  | zero => rfl
  | succ n ih =>
    have hafter : StackIsRam (pull s).2 := stackIsRam_of_busMap_eq h (pull_same s).busMap_eq
    have hbyte (a : Word) : byteAt (pull s).2 a = byteAt s a := (pull_same s).byteAt_eq a
    have hsp (k : Nat) : (pull s).2.sp + BitVec.ofNat 8 (k + 1) = s.sp + BitVec.ofNat 8 (k + 1 + 1) := by
      rw [pull_sp, BitVec.add_assoc, Nat.add_comm (k + 1), BitVec.ofNat_add 1]
      rfl
    rw [pullMany, ih hafter, pull_plain (stackAddr_plain h _), List.range_succ_eq_map, List.map_cons, List.map_map]
    simp only [Function.comp_def, hbyte, hsp]
    rfl

/-- A push leaves the bytes that up to 255 pulls before it would have given. -/
theorem pullMany_push {s : State} (h : StackIsRam s) (v : Byte) {n : Nat} (hn : n < 256) :
    (pullMany (n + 1) (push v s)).1 = v :: (pullMany n s).1 := by
  have hsp (k : Nat) : (push v s).sp + BitVec.ofNat 8 (k + 1) = s.sp + BitVec.ofNat 8 k := by
    rw [push_sp, Nat.add_comm, BitVec.ofNat_add, ← BitVec.add_assoc]
    exact congrArg (· + BitVec.ofNat 8 k) (BitVec.sub_add_cancel _ _)
  rw [pullMany_bytes (push_stackIsRam h v), pullMany_bytes h, List.range_succ_eq_map, List.map_cons, List.map_map]
  simp only [hsp, push_byteAt h, Function.comp_def]
  refine congrArg₂ List.cons ?_ ?_
  · rw [if_pos (congrArg stackAddr (BitVec.add_zero _))]
  · refine List.map_congr_left fun k hk => if_neg fun heq => ?_
    have hk : k < n := List.mem_range.mp hk
    have hwrap := stackAddr_injective heq
    rw [Nat.succ_eq_add_one] at hwrap
    bv_omega

/-- Settles O27: SP is counted down and up again; the bytes by induction on the pushes, the last pushed pulled first. -/
theorem pullsReverseThePushes : Obligations.PullsReverseThePushes := by
  refine fun vs s => ⟨?sp, fun h hlength => ?bytes⟩
  case sp => rw [pullMany_sp, pushAll_sp, BitVec.sub_add_cancel]
  case bytes =>
    induction vs using List.reverseRecOn with
    | nil => rfl
    | append_singleton vs v ih =>
      rw [List.length_append, List.length_singleton] at hlength ⊢
      rw [pushAll_concat, pullMany_push (pushAll_stackIsRam h vs) v (by omega), ih (by omega), List.reverse_append,
        List.reverse_singleton, List.singleton_append]

/-! ### A subroutine called and left -/

/-- Settles O28: JSR is a push of PC - 1 and a jump. -/
theorem jsrPushesTheReturnAddress : Obligations.JsrPushesTheReturnAddress := by
  refine ⟨fun w => rfl, fun w s => ⟨_, exec_jsr s w, ?_⟩⟩
  have heffects := ((pushPc_effects (s.pc - 1) s).setPc w).tick 6
  obtain ⟨hne, -, -⟩ := stackAddr_frame_ne s.sp
  refine ⟨?same, ?log, fun a hhigh hlow => ?kept, fun h => ?pushed⟩
  case same => simpa only [State.setSp, State.setPc, State.tick] using heffects.same
  case log => rw [State.tick_accesses, State.setPc_accesses, pushPc_accesses]
  case kept => simpa using heffects.bytes a fun ha => (List.mem_pair.mp ha).elim hhigh hlow
  case pushed =>
    rw [byteAt_tick, byteAt_tick, byteAt_setPc, byteAt_setPc, pushPc_byteAt h, pushPc_byteAt h, if_neg hne, if_pos rfl,
      if_pos rfl]
    exact ⟨rfl, rfl⟩

/-- On a stack in RAM, PC pulled from where it was pushed is the word pushed, and SP is back. -/
theorem pullPc_of_pushed {s r t : State} {ret : Word} (hram : StackIsRam s)
    (hbytes : SameBytes (pushPc ret s) t) (hsp : r.sp = s.sp - 2)
    (heffects : Effects [stackAddr s.sp, stackAddr (s.sp - 1)] r t) (hmap : r.busMap = s.busMap) :
    (pullPc t).1 = ret ∧ Effects [stackAddr s.sp, stackAddr (s.sp - 1)] (r.setSp s.sp) (pullPc t).2 := by
  obtain ⟨hne, -, -⟩ := stackAddr_frame_ne s.sp
  have ht : t.sp = s.sp - 2 := heffects.same.sp_eq.trans hsp
  have hlow : t.sp + 1 = s.sp - 1 := by bv_omega
  have hhigh : t.sp + 2 = s.sp := by bv_omega
  have htram : StackIsRam t := stackIsRam_of_busMap_eq hram (heffects.same.busMap_eq.trans hmap)
  constructor
  case left =>
    rw [pullPc_plain (stackAddr_plain htram _) (stackAddr_plain htram _), hlow, hhigh, hbytes, hbytes,
      pushPc_byteAt hram, pushPc_byteAt hram, if_neg hne, if_pos rfl, if_pos rfl, mkWord_high_low]
  case right =>
    have hpull := pullPc_effects t
    rw [hhigh] at hpull
    exact (heffects.setSp s.sp).trans hpull

theorem returnFromSubroutine_eq (t : State) :
    returnFromSubroutine t = ((pullPc t).2.setPc ((pullPc t).1 + 1)).tick 6 := rfl

theorem callSubroutine_effects (w : Word) (s : State) :
    Effects [stackAddr s.sp, stackAddr (s.sp - 1)] (((s.setSp (s.sp - 2)).setPc w).tick 6) (callSubroutine w s) :=
  ((pushPc_effects (s.pc - 1) s).setPc w).tick 6

/-- Settles O30: RTS pulls the word JSR pushed, and adds the 1 it took off. -/
theorem jsrThenRtsResumes : Obligations.JsrThenRtsResumes := by
  intro s w r h
  refine ⟨callSubroutine w s, returnFromSubroutine ((callSubroutine w s).setPc r), rfl, rfl, ?_⟩
  have hcalled := (callSubroutine_effects w s).setPc r
  have hbytes : SameBytes (pushPc (s.pc - 1) s) ((callSubroutine w s).setPc r) := by
    intro a
    rw [byteAt_setPc, callSubroutine, byteAt_tick, byteAt_setPc]
  generalize (callSubroutine w s).setPc r = t at hcalled hbytes ⊢
  obtain ⟨hpc, heffects⟩ := pullPc_of_pushed h hbytes rfl hcalled rfl
  have hresume : s.pc - 1 + 1 = s.pc := BitVec.sub_add_cancel _ _
  have hall := (heffects.setPc s.pc).tick 6
  rw [returnFromSubroutine_eq, hpc, hresume]
  refine ⟨?_, fun a hhigh hlow => ?_⟩
  · simpa only [State.setSp, State.setPc, State.tick] using hall.same
  · simpa using hall.bytes a fun ha => (List.mem_pair.mp ha).elim hhigh hlow

/-! ### An exception taken and left -/

/-- On a stack in RAM, the return from a frame of `s` restores the flags and continues at the address pushed; but for
the bytes of the frame, no byte changed. -/
theorem returnFromException_of_frame {s r t : State} {ret : Word} {brk : Bool} (hram : StackIsRam s)
    (hframe : PushedFrame ret (statusByte s.p brk) s t)
    (heffects : Effects [stackAddr s.sp, stackAddr (s.sp - 1), stackAddr (s.sp - 2)] r t) (hsp : r.sp = s.sp - 3)
    (hmap : r.busMap = s.busMap) :
    Effects [stackAddr s.sp, stackAddr (s.sp - 1), stackAddr (s.sp - 2)]
      ((((r.setSp s.sp).setP s.p).setPc ret).tick 6) (returnFromException t) := by
  have ht : t.sp = s.sp - 3 := heffects.same.sp_eq.trans hsp
  have htram : StackIsRam t := stackIsRam_of_busMap_eq hram (heffects.same.busMap_eq.trans hmap)
  have h1 : t.sp + 1 = s.sp - 2 := by bv_omega
  have h2 : t.sp + 2 = s.sp - 1 := by bv_omega
  have h3 : t.sp + 3 = s.sp := by bv_omega
  obtain ⟨hhigh, hlow, hstatus⟩ := hframe.2 hram
  have hp : statusOfByte (pull t).1 = s.p := by
    rw [pull_plain (stackAddr_plain htram _), h1, hstatus, statusOfByte_statusByte]
  have hpc : (returnFromException t).pc = ret := by
    rw [returnFromException_pc_plain t (stackAddr_plain htram _) (stackAddr_plain htram _), h2, h3, hhigh, hlow,
      mkWord_high_low]
  have hreturn := returnFromException_effects t
  rw [hp, hpc, h3] at hreturn
  exact ((((heffects.setSp s.sp).setP s.p).setPc ret).tick 6).trans hreturn

/-- An exception taken and left again, from wherever its handler stands. -/
theorem returnFromException_takeException (vector w : Word) (brk setsI : Bool) {s : State} (h : StackIsRam s) :
    SameButStores { s with cycles := s.cycles + 13 }
        (returnFromException ((takeException vector brk setsI s).setPc w)) ∧
      ∀ a, a ∉ [stackAddr s.sp, stackAddr (s.sp - 1), stackAddr (s.sp - 2)] →
        byteAt (returnFromException ((takeException vector brk setsI s).setPc w)) a = byteAt s a := by
  have heffects := (takeException_effects vector brk setsI s).setPc w
  have hframe := (takeException_pushedFrame vector brk setsI s).then_sameBytes
    (u := (takeException vector brk setsI s).setPc w) fun _ => byteAt_setPc _ _ _
  have hall := returnFromException_of_frame h hframe heffects rfl rfl
  refine ⟨?_, fun a ha => ?_⟩
  · simpa only [State.setSp, State.setP, State.setPc, State.tick] using hall.same
  · simpa using hall.bytes a ha

/-- Settles O22: BRK and every entry leave the frame that the return pulls. -/
theorem returnUndoesEntry : Obligations.ReturnUndoesEntry := by
  refine ⟨fun s w h => ⟨_, _, exec_brk s, exec_rti _, ?brk⟩, fun vector w brk setsI s h => ?entry⟩
  case brk => exact returnFromException_takeException irqVector w true true (s := s.setPc (s.pc + 1)) h
  case entry => exact returnFromException_takeException vector w brk setsI h

end Sys2Proof.Machine
end

section
/-! PROOFS. Binary and decimal arithmetic (R170 to R173): the formulas of the rules, and the laws that follow. -/

namespace Sys2Proof.Machine

/-! ### Binary results -/

section
variable (a m : Byte) (c : Bool)

theorem addBinary_val_toNat : (addBinary a m c).val.toNat = (a.toNat + m.toNat + c.toNat) % 256 :=
  BitVec.toNat_ofNat _ _

theorem addBinary_carry : (addBinary a m c).carry = decide (256 ≤ a.toNat + m.toNat + c.toNat) := rfl

theorem subBinary_val_toNat :
    ((subBinary a m c).val.toNat : Int) = ((a.toNat : Int) - m.toNat - (1 - c.toNat)) % 256 := by
  rw [subBinary, BitVec.toNat_ofInt, Int.toNat_of_nonneg (Int.emod_nonneg _ (by decide))]
  rfl

theorem subBinary_carry : (subBinary a m c).carry = decide (m.toNat + (1 - c.toNat) ≤ a.toNat) := by
  have hc := c.toNat_le
  rw [subBinary, decide_eq_decide]
  omega

/-- A byte's value as a signed number, from its sign bit (R8). -/
theorem byte_toInt (v : Byte) : v.toInt = (v.toNat : Int) - if v.msb then 256 else 0 := by
  rw [BitVec.toInt_eq_msb_cond]
  split <;> simp

/-- V after addition says that the signed sum does not fit a byte (D25). -/
theorem addBinary_overflow :
    (addBinary a m c).overflow =
      decide (a.toInt + m.toInt + c.toNat < -128 ∨ 127 < a.toInt + m.toInt + c.toNat) := by
  have hval := addBinary_val_toNat a m c
  have hc := c.toNat_le
  have ha := a.isLt
  have hm := m.isLt
  have hover : (addBinary a m c).overflow = (a.msb == m.msb && (addBinary a m c).val.msb != a.msb) := rfl
  rw [hover, Bool.eq_iff_iff, decide_eq_true_iff, byte_toInt, byte_toInt]
  simp only [BitVec.msb_eq_decide, Bool.and_eq_true, beq_iff_eq, bne_iff_ne, ne_eq, decide_eq_decide, decide_eq_true_eq]
  split <;> split <;> omega

/-- V after subtraction says that the signed difference does not fit a byte (D25). -/
theorem subBinary_overflow :
    (subBinary a m c).overflow =
      decide (a.toInt - m.toInt - (1 - c.toNat) < -128 ∨ 127 < a.toInt - m.toInt - (1 - c.toNat)) := by
  have hval := subBinary_val_toNat a m c
  have hc := c.toNat_le
  have ha := a.isLt
  have hm := m.isLt
  have hover : (subBinary a m c).overflow = (a.msb != m.msb && (subBinary a m c).val.msb != a.msb) := rfl
  rw [hover, Bool.eq_iff_iff, decide_eq_true_iff, byte_toInt, byte_toInt]
  simp only [BitVec.msb_eq_decide, Bool.and_eq_true, bne_iff_ne, ne_eq, decide_eq_decide, decide_eq_true_eq]
  split <;> split <;> omega

end

/-! ### ADC and SBC by the mode that D selects -/

section
variable {m : Byte} {s : State}

theorem addToA_binary (h : s.p.d = false) : addToA m s = putSum (addBinary s.a m s.p.c) s := by
  simp [addToA, h]

theorem subFromA_binary (h : s.p.d = false) : subFromA m s = putSum (subBinary s.a m s.p.c) s := by
  simp [subFromA, h]

theorem addToA_decimal (h : s.p.d = true) (ha : validBcd s.a = true) (hm : validBcd m = true) :
    addToA m s = putDecimal (addDecimal s.a m s.p.c) s := by
  simp [addToA, h, ha, hm]

theorem subFromA_decimal (h : s.p.d = true) (ha : validBcd s.a = true) (hm : validBcd m = true) :
    subFromA m s = putDecimal (subDecimal s.a m s.p.c) s := by
  simp [subFromA, h, ha, hm]

end

section
variable {d : DataOperand} {s : State} (c : Cost)

theorem adc_binary (h : s.p.d = false) :
    (adc d c s).a = (addBinary s.a (readData d s).val s.p.c).val ∧
      (adc d c s).p = { nzOf s.p (addBinary s.a (readData d s).val s.p.c).val with
        v := (addBinary s.a (readData d s).val s.p.c).overflow
        c := (addBinary s.a (readData d s).val s.p.c).carry } := by
  have hread := readData_same d s
  rw [adc, addToA_binary (by rw [hread.p_eq, h]), hread.a_eq, hread.p_eq, ← setNZ_eq_nzOf, ← hread.p_eq]
  exact ⟨rfl, rfl⟩

theorem sbc_binary (h : s.p.d = false) :
    (sbc d c s).a = (subBinary s.a (readData d s).val s.p.c).val ∧
      (sbc d c s).p = { nzOf s.p (subBinary s.a (readData d s).val s.p.c).val with
        v := (subBinary s.a (readData d s).val s.p.c).overflow
        c := (subBinary s.a (readData d s).val s.p.c).carry } := by
  have hread := readData_same d s
  rw [sbc, subFromA_binary (by rw [hread.p_eq, h]), hread.a_eq, hread.p_eq, ← setNZ_eq_nzOf, ← hread.p_eq]
  exact ⟨rfl, rfl⟩

theorem adc_decimal (h : s.p.d = true) (ha : validBcd s.a = true) (hm : validBcd (readData d s).val = true) :
    (adc d c s).a = (addDecimal s.a (readData d s).val s.p.c).1 ∧
      (adc d c s).p.c = (addDecimal s.a (readData d s).val s.p.c).2 := by
  have hread := readData_same d s
  rw [adc, addToA_decimal (by rw [hread.p_eq, h]) (by rw [hread.a_eq, ha]) hm, hread.a_eq, hread.p_eq]
  exact ⟨rfl, rfl⟩

theorem sbc_decimal (h : s.p.d = true) (ha : validBcd s.a = true) (hm : validBcd (readData d s).val = true) :
    (sbc d c s).a = (subDecimal s.a (readData d s).val s.p.c).1 ∧
      (sbc d c s).p.c = (subDecimal s.a (readData d s).val s.p.c).2 := by
  have hread := readData_same d s
  rw [sbc, subFromA_decimal (by rw [hread.p_eq, h]) (by rw [hread.a_eq, ha]) hm, hread.a_eq, hread.p_eq]
  exact ⟨rfl, rfl⟩

end

/-- With A and the flags known, an arithmetic instruction leaves what reading its operand leaves but for them and the
time. -/
theorem ArithmeticDone.sameButReads {d : DataOperand} {s t : State} {r : Byte} {p : Status}
    (h : ArithmeticDone d s t) (ha : t.a = r) (hp : t.p = p) :
    SameButReads { s with a := r, p := p, cycles := s.cycles + readCycles d (readData d s).crossed } t := by
  subst ha hp
  exact h.effects.sameButReads

/-- Settles O34: each form of ADC runs `adc`, whose binary result has the rule's carry and overflow. -/
theorem adcAddsBinary : Obligations.AdcAddsBinary := by
  refine ⟨hasForms_of_opcodeCell rfl (by decide), fun i s h hd => ?_⟩
  obtain ⟨d, hop, hexec⟩ := exec_of_adc h
  obtain ⟨ha, hp⟩ := adc_binary (d := d) (readCost d) hd
  rw [addBinary_overflow, addBinary_carry] at hp
  exact ⟨d, _, _, hop, hexec s, addBinary_val_toNat _ _ _, (adc_arithmeticDone d s).sameButReads ha hp,
    (adc_arithmeticDone d s).accesses⟩

/-- Settles O35: each form of SBC runs `sbc`, whose binary result has the rule's carry and overflow. -/
theorem sbcSubtractsBinary : Obligations.SbcSubtractsBinary := by
  refine ⟨hasForms_of_opcodeCell rfl (by decide), fun i s h hd => ?_⟩
  obtain ⟨d, hop, hexec⟩ := exec_of_sbc h
  obtain ⟨ha, hp⟩ := sbc_binary (d := d) (readCost d) hd
  rw [subBinary_overflow, subBinary_carry] at hp
  exact ⟨d, _, _, hop, hexec s, subBinary_val_toNat _ _ _, (sbc_arithmeticDone d s).sameButReads ha hp,
    (sbc_arithmeticDone d s).accesses⟩

/-! ### Decimal results -/

theorem toBcd_toNat {n : Nat} (h : n < 100) : (toBcd n).toNat = n / 10 * 16 + n % 10 := by
  rw [toBcd, BitVec.toNat_ofNat, Nat.mod_eq_of_lt]
  omega

theorem validBcd_toBcd {n : Nat} (h : n < 100) : validBcd (toBcd n) = true := by
  rw [validBcd, toBcd_toNat h, Bool.and_eq_true, decide_eq_true_iff, decide_eq_true_iff]
  omega

theorem bcd_toBcd {n : Nat} (h : n < 100) : bcd (toBcd n) = n := by
  rw [bcd, toBcd_toNat h]
  omega

theorem subDecimal_carry (a m : Byte) (c : Bool) :
    (subDecimal a m c).2 = decide (bcd m + (1 - c.toNat) ≤ bcd a) := by
  have hc := c.toNat_le
  rw [subDecimal, decide_eq_decide]
  omega

/-- A sum or difference modulo 100 is a value of two decimal digits. -/
theorem toNat_emod_hundred_lt (d : Int) : (d % 100).toNat < 100 := by
  omega

/-- The flags after decimal arithmetic, with N, V and Z as they came out. -/
theorem ArithmeticDone.flags_of_carry {d : DataOperand} {s t : State} {c : Bool} (h : ArithmeticDone d s t)
    (hc : t.p.c = c) : t.p = { s.p with n := t.p.n, v := t.p.v, z := t.p.z, c := c } := by
  subst hc
  exact h.flags

/-- Settles O36: on BCD operands `adc` and `sbc` put a decimal result, which is below 100 and so BCD again. -/
theorem decimalArithmeticOnBcd : Obligations.DecimalArithmeticOnBcd := by
  refine ⟨fun i s h hd => ?adc, fun i s h hd => ?sbc⟩
  case adc =>
    obtain ⟨d, hop, hexec⟩ := exec_of_adc h
    refine ⟨d, hop, fun ha hm => ?_⟩
    obtain ⟨hval, hcarry⟩ := adc_decimal (readCost d) hd ha hm
    have hdone := adc_arithmeticDone d s
    have hlt := Nat.mod_lt (bcd s.a + bcd (readData d s).val + s.p.c.toNat) (y := 100) (by decide)
    exact ⟨_, _, _, _, _, hexec s, validBcd_toBcd hlt, bcd_toBcd hlt,
      hdone.sameButReads hval (hdone.flags_of_carry hcarry), hdone.accesses⟩
  case sbc =>
    obtain ⟨d, hop, hexec⟩ := exec_of_sbc h
    refine ⟨d, hop, fun ha hm => ?_⟩
    obtain ⟨hval, hcarry⟩ := sbc_decimal (readCost d) hd ha hm
    rw [subDecimal_carry] at hcarry
    have hdone := sbc_arithmeticDone d s
    refine ⟨_, _, _, _, _, hexec s, validBcd_toBcd (toNat_emod_hundred_lt _), ?value,
      hdone.sameButReads hval (hdone.flags_of_carry hcarry), hdone.accesses⟩
    rw [bcd_toBcd (toNat_emod_hundred_lt _), Int.toNat_of_nonneg (Int.emod_nonneg _ (by decide))]

/-- Settles O37: whatever the operands are, ADC and SBC put some result. -/
theorem decimalArithmeticOnOtherBytes : Obligations.DecimalArithmeticOnOtherBytes := by
  intro i s h hd
  obtain h | h := h
  case inl =>
    obtain ⟨d, hop, hexec⟩ := exec_of_adc h
    have hdone := adc_arithmeticDone d s
    exact ⟨d, hop, fun _ => ⟨_, _, _, _, _, _, hexec s, hdone.sameButReads rfl hdone.flags, hdone.accesses⟩⟩
  case inr =>
    obtain ⟨d, hop, hexec⟩ := exec_of_sbc h
    have hdone := sbc_arithmeticDone d s
    exact ⟨d, hop, fun _ => ⟨_, _, _, _, _, _, hexec s, hdone.sameButReads rfl hdone.flags, hdone.accesses⟩⟩

/-! ### Laws of binary arithmetic -/

theorem sum_eq_of_fields {r r' : Sum} (hval : r.val = r'.val) (hcarry : r.carry = r'.carry)
    (hover : r.overflow = r'.overflow) : r = r' := by
  cases r
  cases r'
  cases hval
  cases hcarry
  cases hover
  rfl

/-- Subtracting is adding the complement (R173). -/
theorem addBinary_complement (a m : Byte) (c : Bool) : addBinary a (m ^^^ 0xFF) c = subBinary a m c := by
  have hnot : m ^^^ 0xFF = ~~~m := BitVec.xor_allOnes
  have hm : (~~~m).toNat = 255 - m.toNat := BitVec.toNat_not
  have hval : (addBinary a (~~~m) c).val = (subBinary a m c).val := by
    have hadd := addBinary_val_toNat a (~~~m) c
    have hsub := subBinary_val_toNat a m c
    apply BitVec.eq_of_toNat_eq
    omega
  have hcarry : (addBinary a (~~~m) c).carry = (subBinary a m c).carry := by
    have hc := c.toNat_le
    rw [addBinary_carry, subBinary_carry, decide_eq_decide]
    omega
  have hover : (addBinary a (~~~m) c).overflow = (subBinary a m c).overflow := by
    show (a.msb == (~~~m).msb && (addBinary a (~~~m) c).val.msb != a.msb) = _
    rw [hval, BitVec.msb_not]
    show _ = (a.msb != m.msb && (subBinary a m c).val.msb != a.msb)
    cases a.msb <;> cases m.msb <;> rfl
  rw [hnot]
  exact sum_eq_of_fields hval hcarry hover

section
variable (m : Byte) (s : State)

theorem exec_adcImm : exec (.adcImm m) s = .next ((addToA m s).tick 2) := rfl
theorem exec_sbcImm : exec (.sbcImm m) s = .next ((subFromA m s).tick 2) := rfl
theorem exec_cmpImm : exec (.cmpImm m) s = .next ((s.setP (compareFlags s.p s.a m)).tick 2) := rfl

end

theorem subBinary_val_of_carry (a m : Byte) : (subBinary a m true).val = a - m := by
  have hval := subBinary_val_toNat a m true
  apply BitVec.eq_of_toNat_eq
  rw [byte_sub_toNat]
  have := m.isLt
  simp only [Bool.toNat_true] at hval
  omega

/-- Settles O38: by `addBinary_complement`; with the carry set, the difference that SBC takes N, Z and C from is that of
the compare. -/
theorem sbcIsAdcOfTheComplement : Obligations.SbcIsAdcOfTheComplement := by
  intro m s h
  refine ⟨⟨_, exec_sbcImm m s, ?complement⟩, ⟨_, _, _, exec_sec s, exec_sbcImm m _, exec_cmpImm m s, ?compare⟩⟩
  case complement =>
    rw [exec_adcImm, addToA_binary h, subFromA_binary h, addBinary_complement]
  case compare =>
    rw [subFromA_binary (m := m) (s := (s.setP { s.p with c := true }).tick 2) h]
    have hz : (s.a - m == 0) = (s.a == m) := by
      rw [Bool.eq_iff_iff, beq_iff_eq, beq_iff_eq]
      exact sub_eq_zero
    have hc : (subBinary s.a m true).carry = decide (m.toNat ≤ s.a.toNat) := subBinary_carry s.a m true
    show (subBinary s.a m true).val.msb = _ ∧ ((subBinary s.a m true).val == 0) = _ ∧ (subBinary s.a m true).carry = _
    rw [subBinary_val_of_carry, hz, hc]
    exact ⟨rfl, rfl, rfl⟩

theorem toNat_decide (p : Prop) [Decidable p] : (decide p).toNat = if p then 1 else 0 := by
  split <;> simp [*]

/-- The carry is the ninth bit of the sum. -/
theorem addBinary_exact (a m : Byte) (c : Bool) :
    256 * (addBinary a m c).carry.toNat + (addBinary a m c).val.toNat = a.toNat + m.toNat + c.toNat := by
  have ha := a.isLt
  have hm := m.isLt
  have hc := c.toNat_le
  rw [addBinary_val_toNat, addBinary_carry, toNat_decide]
  split <;> omega

/-- A clear carry is a borrow of 256. -/
theorem subBinary_exact (a m : Byte) (c : Bool) :
    ((subBinary a m c).val.toNat : Int) - 256 * (1 - (subBinary a m c).carry.toNat) =
      (a.toNat : Int) - m.toNat - (1 - c.toNat) := by
  have ha := a.isLt
  have hm := m.isLt
  have hc := c.toNat_le
  rw [subBinary_val_toNat, subBinary_carry, toNat_decide]
  split <;> omega

theorem word_eq_bytes (w : Word) : w.toNat = (highByte w).toNat * 256 + (lowByte w).toNat := by
  rw [highByte_toNat, lowByte_toNat]
  omega

/-- Settles O39: by the exactness of one byte's sum and difference, once and chained. -/
theorem carryChainsWideArithmetic : Obligations.CarryChainsWideArithmetic := by
  refine ⟨fun m s h => ⟨_, _, exec_clc s, exec_adcImm m _, ?add⟩,
    fun m s h => ⟨_, _, exec_sec s, exec_sbcImm m _, ?sub⟩, fun v w c => ?addWide, fun v w => ?subWide⟩
  case add =>
    rw [addToA_binary (m := m) (s := (s.setP { s.p with c := false }).tick 2) h]
    exact addBinary_exact s.a m false
  case sub =>
    rw [subFromA_binary (m := m) (s := (s.setP { s.p with c := true }).tick 2) h]
    have hexact := subBinary_exact s.a m true
    rw [Bool.toNat_true, Nat.cast_one, sub_self, sub_zero] at hexact
    exact hexact
  case addWide =>
    have hlow := addBinary_exact (lowByte v) (lowByte w) c
    have hhigh := addBinary_exact (highByte v) (highByte w) (addBinary (lowByte v) (lowByte w) c).carry
    have hv := word_eq_bytes v
    have hw := word_eq_bytes w
    simp only [mkWord_toNat]
    omega
  case subWide =>
    have hlow := subBinary_exact (lowByte v) (lowByte w) true
    have hhigh := subBinary_exact (highByte v) (highByte w) (subBinary (lowByte v) (lowByte w) true).carry
    have hv := word_eq_bytes v
    have hw := word_eq_bytes w
    have hcarry := (subBinary (highByte v) (highByte w) (subBinary (lowByte v) (lowByte w) true).carry).carry.toNat_le
    have hlt := (mkWord (subBinary (highByte v) (highByte w) (subBinary (lowByte v) (lowByte w) true).carry).val
      (subBinary (lowByte v) (lowByte w) true).val).isLt
    rw [mkWord_toNat] at hlt
    simp only [Bool.toNat_true] at hlow
    constructor
    · apply BitVec.eq_of_toNat_eq
      rw [mkWord_toNat, BitVec.toNat_sub]
      omega
    · rw [Bool.eq_iff_iff, decide_eq_true_iff, ← Bool.toNat_eq_one]
      omega

end Sys2Proof.Machine
end

section
/-! PROOFS. Branches and the compares before them (R210, R213 to R222), the flag instructions (R240 to R246, R248), and
the rotates that undo each other (R198). -/

namespace Sys2Proof.Machine

/-! ### Flag instructions -/

/-- Settles O50: each runs one update of P, and CLI and SEI remember the old I. -/
theorem flagInstructionsWriteOneFlag : Obligations.FlagInstructionsWriteOneFlag :=
  ⟨⟨rfl, exec_clc⟩, ⟨rfl, exec_sec⟩, ⟨rfl, exec_cli⟩, ⟨rfl, exec_sei⟩, ⟨rfl, exec_cld⟩, ⟨rfl, exec_sed⟩,
    ⟨rfl, exec_clv⟩, ⟨rfl, exec_nop⟩⟩

/-! ### Branches -/

section
variable (cond : Bool) (b : Byte) (s : State)

theorem branch_pc : (branch cond b s).pc = if cond then branchTarget s.pc b else s.pc := by
  cases cond <;> rfl

/-- A branch target by the formula of R213. -/
theorem branchTarget_toNat (pc : Word) : ((branchTarget pc b).toNat : Int) = ((pc.toNat : Int) + b.toInt) % 65536 := by
  have hb : (sext b).toInt = b.toInt := BitVec.toInt_signExtend_of_le (by decide)
  have hsext : ((sext b).toNat : Int) = b.toInt % 65536 := by
    rw [← hb, BitVec.toInt_eq_toNat_cond]
    have := (sext b).isLt
    split <;> omega
  rw [branchTarget, BitVec.toNat_add]
  omega

/-- The pages of R322 are the high bytes. -/
theorem highByte_eq_iff (v w : Word) : highByte v = highByte w ↔ v.toNat / 256 = w.toNat / 256 := by
  rw [BitVec.toNat_eq, highByte_toNat, highByte_toNat]

theorem branch_eq :
    branch cond b s = if cond then
        { s with
          pc := branchTarget s.pc b
          cycles := s.cycles + (if (branchTarget s.pc b).toNat / 256 = s.pc.toNat / 256 then 3 else 4) }
      else { s with cycles := s.cycles + 2 } := by
  have hcycles : takenCycles s.pc b =
      if (branchTarget s.pc b).toNat / 256 = s.pc.toNat / 256 then 3 else 4 := by
    rw [takenCycles]
    exact if_congr (highByte_eq_iff _ _) rfl rfl
  rw [branch, hcycles]
  rfl

end

/-- Settles O48: each branch runs `branch` on its own test. -/
theorem branchesMoveOnlyPc : Obligations.BranchesMoveOnlyPc := by
  refine ⟨fun b => ⟨rfl, rfl, rfl, rfl, rfl, rfl, rfl, rfl⟩, fun i s h => ?_⟩
  obtain ⟨b, hop, hexec⟩ := exec_of_branch h
  exact ⟨b, branchTarget s.pc b, hop, branchTarget_toNat b s.pc, by rw [hexec, branch_eq]⟩

section
variable (b : Byte) (s : State)
theorem exec_bcc : exec (.bcc b) s = .next (branch (!s.p.c) b s) := rfl
theorem exec_bcs : exec (.bcs b) s = .next (branch s.p.c b s) := rfl
theorem exec_beq : exec (.beq b) s = .next (branch s.p.z b s) := rfl
theorem exec_bne : exec (.bne b) s = .next (branch (!s.p.z) b s) := rfl
theorem exec_bmi : exec (.bmi b) s = .next (branch s.p.n b s) := rfl
theorem exec_bpl : exec (.bpl b) s = .next (branch (!s.p.n) b s) := rfl
theorem exec_bvc : exec (.bvc b) s = .next (branch (!s.p.v) b s) := rfl
theorem exec_bvs : exec (.bvs b) s = .next (branch s.p.v b s) := rfl
end

/-- Of two branches on opposite tests, one moves PC to the target. -/
theorem branch_opposite (cond : Bool) (b : Byte) (s : State) :
    ((branch (!cond) b s).pc = branchTarget s.pc b ∧ (branch cond b s).pc = s.pc) ∨
      ((branch (!cond) b s).pc = s.pc ∧ (branch cond b s).pc = branchTarget s.pc b) := by
  cases cond
  · exact .inl ⟨rfl, rfl⟩
  · exact .inr ⟨rfl, rfl⟩

/-- Settles O47: the branches test what the compare left in Z and C, and each pair tests one flag both ways. -/
theorem branchAfterCompare : Obligations.BranchAfterCompare := by
  refine ⟨fun i s b h => ?compare, fun i j b s h => ?pair⟩
  case compare =>
    obtain ⟨d, hop, hexec⟩ := exec_of_cmp h
    have hsame := compareReg_same s.a d s
    refine ⟨d, _, _, _, _, hop, hexec s, exec_beq b _, exec_bcs b _, exec_bcc b _, ?_⟩
    rw [branch_pc, branch_pc, branch_pc, hsame.pc_eq, hsame.p_eq]
    refine ⟨?beq, ?bcs, ?bcc⟩
    case beq => simp [eq_comm]
    case bcs => simp
    case bcc => simp
  case pair =>
    simp only [List.mem_cons, Prod.mk.injEq, List.not_mem_nil, or_false] at h
    obtain ⟨rfl, rfl⟩ | ⟨rfl, rfl⟩ | ⟨rfl, rfl⟩ | ⟨rfl, rfl⟩ := h
    · exact ⟨_, _, exec_bcc b s, exec_bcs b s, branch_opposite _ b s⟩
    · exact ⟨_, _, exec_bne b s, exec_beq b s, branch_opposite _ b s⟩
    · exact ⟨_, _, exec_bpl b s, exec_bmi b s, branch_opposite _ b s⟩
    · exact ⟨_, _, exec_bvc b s, exec_bvs b s, branch_opposite _ b s⟩

/-! ### Rotates -/

/-- A rotate left and a rotate right, with the carry between them, give byte and carry back. -/
theorem rotateRight_rotateLeft (v : Byte) (c : Bool) :
    rotateRight (rotateLeft v c).1 (rotateLeft v c).2 = (v, c) := by
  obtain ⟨hleft, hout⟩ := rotateLeft_followsShiftRule v c
  obtain ⟨hright, hback⟩ := rotateRight_followsShiftRule (rotateLeft v c).1 (rotateLeft v c).2
  have hv := v.isLt
  have hc := c.toNat_le
  rw [hleft, hout] at hright hback
  simp only [shiftResult, toNat_decide] at hright hback
  refine Prod.ext (BitVec.eq_of_toNat_eq ?_) ?_
  · rw [hout]
    refine hright.trans ?_
    show _ = v.toNat
    split <;> omega
  · rw [hout]
    refine hback.trans ?_
    show decide ((v.toNat * 2 % 256 + c.toNat) % 2 = 1) = c
    rw [Bool.eq_iff_iff, decide_eq_true_iff, ← Bool.toNat_eq_one]
    omega

section
variable (s : State)
theorem exec_aslA : exec .aslA s = .next (shiftA shiftLeft s) := rfl
theorem exec_lsrA : exec .lsrA s = .next (shiftA shiftRight s) := rfl
theorem exec_rolA : exec .rolA s = .next (shiftA rotateLeft s) := rfl
theorem exec_rorA : exec .rorA s = .next (shiftA rotateRight s) := rfl
theorem exec_rolAbs (w : Word) : exec (.rolAbs w) s = .next (shiftMem rotateLeft (.abs w) 6 s) := rfl
theorem exec_rorAbs (w : Word) : exec (.rorAbs w) s = .next (shiftMem rotateRight (.abs w) 6 s) := rfl

variable (f : Byte → Bool → Byte × Bool)

@[simp] theorem shiftA_a : (shiftA f s).a = (f s.a s.p.c).1 := rfl
@[simp] theorem shiftA_c : (shiftA f s).p.c = (f s.a s.p.c).2 := rfl
end

/-- RAM outside the port is read and stored to. -/
theorem plainRead_of_ram {s : State} {w : Word} (h1 : w ≠ 0x0001#16) (hram : busKind s w = .ram) :
    plainRead s w = true ∧ stores s w = true := by
  simp [plainRead, stores, h1, hram]

/-- A shift of a byte in RAM outside the port replaces that byte and the carry. -/
theorem shiftMem_abs_ram (f : Byte → Bool → Byte × Bool) (n : Nat) {s : State} {w : Word} (h1 : w ≠ 0x0001#16)
    (hram : busKind s w = .ram) :
    (∀ a, byteAt (shiftMem f (.abs w) n s) a = if a = w then (f (byteAt s w) s.p.c).1 else byteAt s a) ∧
      (shiftMem f (.abs w) n s).p.c = (f (byteAt s w) s.p.c).2 ∧ busKind (shiftMem f (.abs w) n s) w = .ram := by
  obtain ⟨hplain, hstores⟩ := plainRead_of_ram h1 hram
  have hread : (readData (.mem (.abs w)) s).val = byteAt s w := congrArg Prod.fst (memRead_plain hplain)
  have heffects := readWrite_effects (s := s) (.abs w) (f (readData (.mem (.abs w)) s).val s.p.c).1
    (shiftFlags s.p (f (readData (.mem (.abs w)) s).val s.p.c)) n
  have hstored := (memWrite_stored w (f (readData (.mem (.abs w)) s).val s.p.c).1
    (readData (.mem (.abs w)) s).st).after_reads (readData_same (.mem (.abs w)) s)
  have heq : shiftMem f (.abs w) n s =
      ((memWrite w (f (readData (.mem (.abs w)) s).val s.p.c).1 (readData (.mem (.abs w)) s).st).setP
        (shiftFlags s.p (f (readData (.mem (.abs w)) s).val s.p.c))).tick n := rfl
  rw [heq]
  rw [hread] at heffects hstored ⊢
  refine ⟨fun a => ?byte, rfl, ?kind⟩
  case byte =>
    rw [byteAt_tick, byteAt_setP]
    split
    case isTrue h => rw [h, hstored.1, if_pos hstores]
    case isFalse h => exact hstored.2 a h
  case kind => exact (heffects.same.busKind_eq w).trans hram

/-- Settles O45: by `rotateRight_rotateLeft`, on A and on a byte in RAM; ASL and LSR by their rules. -/
theorem rotatesUndoEachOther : Obligations.RotatesUndoEachOther := by
  refine ⟨fun s => ⟨_, _, exec_rolA s, exec_rorA _, ?acc⟩,
    fun w s h0 h1 hram => ⟨_, _, exec_rolAbs s w, exec_rorAbs _ w, ?mem⟩,
    fun s => ⟨_, _, exec_aslA s, exec_lsrA _, ?shift⟩⟩
  case acc =>
    simp only [shiftA_a, shiftA_c, rotateRight_rotateLeft, and_self]
  case mem =>
    obtain ⟨hbyte, hcarry, hstill⟩ := shiftMem_abs_ram rotateLeft 6 h1 hram
    obtain ⟨hbyte', hcarry', -⟩ := shiftMem_abs_ram rotateRight 6 h1 hstill
    rw [hcarry, hbyte w, if_pos rfl, rotateRight_rotateLeft] at hcarry' hbyte'
    refine ⟨fun a => ?_, hcarry'⟩
    rw [hbyte', hbyte]
    split
    case isTrue h => rw [h]
    case isFalse h => rfl
  case shift =>
    obtain ⟨hleft, -⟩ := shiftLeft_followsShiftRule s.a s.p.c
    obtain ⟨hright, -⟩ := shiftRight_followsShiftRule (shiftLeft s.a s.p.c).1 (shiftA shiftLeft s).p.c
    rw [shiftA_a, shiftA_a, hright, hleft]
    simp only [shiftResult]
    omega

end Sys2Proof.Machine
end

section
/-! PROOFS. The port registers and memory as a program sees them: reads and writes at $0000 and $0001 (R35 to R38, R61,
R62), a store followed by a load, and the addresses the modes form (R108 to R116). -/

namespace Sys2Proof.Machine

/-! ### Reading the port -/

/-- The byte read at $0001, bit by bit (R37, R38). -/
theorem portValue_getLsbD (ddr por : Byte) (pins : BitVec 6) {k : Nat} (hk : k < 8) :
    (portValue ddr por pins).getLsbD k =
      if ddr.getLsbD k then por.getLsbD k else if k < 6 then pins.getLsbD k else true := by
  have hhigh : ∀ j < 8, (0xC0#8).getLsbD j = !decide (j < 6) := by decide
  simp only [portValue, BitVec.getLsbD_or, BitVec.getLsbD_and, BitVec.getLsbD_not, BitVec.getLsbD_setWidth,
    hhigh k hk, hk, decide_true, Bool.true_and]
  by_cases h6 : k < 6
  case pos => cases ddr.getLsbD k <;> simp [h6]
  case neg => cases ddr.getLsbD k <;> simp [h6]

/-- A sample of the pins that is given is the one read, and is used up. -/
theorem portPins_of_sample {s : State} {q : BitVec 6} {rest : List (BitVec 6)} (h : s.portIn = q :: rest) :
    portPins s = (q, s.setPortIn rest) := by
  rw [portPins, h]

theorem memRead_port (s : State) :
    memRead 0x0001#16 s = (portValue s.ddr s.por (portPins s).1,
      (portPins s).2.logAccess ⟨.read, 0x0001#16, portValue s.ddr s.por (portPins s).1⟩) := rfl

/-! ### The zero-page accesses of the port -/

section
variable (z : Byte) (s : State)

theorem exec_ldaZpg : exec (.ldaZpg z) s = .next (loadA (.mem (.zpg z)) (.exact 3) s) := rfl
theorem exec_staZpg : exec (.staZpg z) s = .next (storeReg s.a (.zpg z) 3 s) := rfl

/-- LDA of a zero-page address takes the byte one read gives. -/
theorem loadA_zpg_a (cost : Cost) : (loadA (.mem (.zpg z)) cost s).a = (memRead (zext z) s).1 := rfl

/-- A read at $0000 gives DDR (R35). -/
theorem memRead_ddr : (memRead 0x0000#16 s).1 = s.ddr := rfl

theorem loadA_zpg_ddr_a (cost : Cost) : (loadA (.mem (.zpg 0x00)) cost s).a = s.ddr :=
  (loadA_zpg_a 0x00 s cost).trans (memRead_ddr s)

end

/-- Settles O51: the bits by `portValue_getLsbD`, the sample by `portPins_of_sample`. -/
theorem portReadsLatchOrPins : Obligations.PortReadsLatchOrPins := by
  refine fun s => ⟨(portPins s).1, fun k hk => portValue_getLsbD s.ddr s.por _ hk, fun q rest h => ?sample,
    memRead_same _ s, _, exec_ldaZpg 0x01 s, loadA_zpg_a 0x01 s _⟩
  case sample =>
    rw [memRead_port, portPins_of_sample h]
    exact ⟨rfl, rfl⟩

/-! ### Writing -/

section
variable (v : Byte) (s : State)

theorem storeReg_zpg_ddr (n : Nat) :
    storeReg v (.zpg 0x00) n s = ((s.setDdr v).logAccess ⟨.write, 0x0000#16, v⟩).tick n := rfl
theorem storeReg_zpg_por (n : Nat) :
    storeReg v (.zpg 0x01) n s = ((s.setPor v).logAccess ⟨.write, 0x0001#16, v⟩).tick n := rfl

variable {a : Word}

theorem storeByte_ram (h0 : a ≠ 0x0000#16) (h1 : a ≠ 0x0001#16) (hram : busKind s a = .ram) :
    storeByte a v s = s.setMem (s.mem.write a.toNat v) := by
  rw [storeByte, if_neg h0, if_neg h1, if_pos hram]

/-- ROM and devices store nothing (R62). -/
theorem storeByte_of_not_stores (h0 : a ≠ 0x0000#16) (h1 : a ≠ 0x0001#16) (hram : busKind s a ≠ .ram) :
    storeByte a v s = s := by
  rw [storeByte, if_neg h0, if_neg h1, if_neg hram]

/-- Outside the port a write leaves DDR and the latch as they were. -/
theorem storeByte_portRegisters (h0 : a ≠ 0x0000#16) (h1 : a ≠ 0x0001#16) :
    (storeByte a v s).ddr = s.ddr ∧ (storeByte a v s).por = s.por := by
  by_cases hram : busKind s a = .ram
  case pos =>
    rw [storeByte_ram v s h0 h1 hram]
    exact ⟨rfl, rfl⟩
  case neg =>
    rw [storeByte_of_not_stores v s h0 h1 hram]
    exact ⟨rfl, rfl⟩

end

/-- A write outside the port and RAM leaves memory as it was. -/
theorem memWrite_mem_of_not_ram {a : Word} (v : Byte) (s : State) (h0 : a ≠ 0x0000#16) (h1 : a ≠ 0x0001#16)
    (hram : busKind s a ≠ .ram) : (memWrite a v s).mem = s.mem := by
  show (storeByte a v s).mem = s.mem
  rw [storeByte_of_not_stores v s h0 h1 hram]

/-- A read after a write to RAM outside the port gives the byte written. -/
theorem memRead_memWrite_of_ram {s : State} {a : Word} (v : Byte) (h1 : a ≠ 0x0001#16) (hram : busKind s a = .ram) :
    (memRead a (memWrite a v s)).1 = v := by
  have hkind : busKind (memWrite a v s) a = .ram := ((memWrite_same a v s).busKind_eq a).trans hram
  rw [memRead_plain (plainRead_of_ram h1 hkind).1, (memWrite_stored a v s).1, if_pos (plainRead_of_ram h1 hram).2]

/-- Settles O53: by what `storeByte` does at $0000, at $0001, in RAM and elsewhere. -/
theorem writesReachTheirLocation : Obligations.WritesReachTheirLocation := by
  refine fun a v s => ⟨memWrite_same a v s, memWrite_accesses a v s, ?ddr, ?por, fun h0 h1 => ?external⟩
  case ddr =>
    rintro rfl
    exact ⟨rfl, rfl, rfl, rfl⟩
  case por =>
    rintro rfl
    exact ⟨rfl, rfl, rfl⟩
  case external =>
    obtain ⟨hddr, hpor⟩ := storeByte_portRegisters v s h0 h1
    exact ⟨hddr, hpor, fun hram => ⟨memRead_memWrite_of_ram v h1 hram, (memWrite_stored a v s).2⟩,
      fun hram => memWrite_mem_of_not_ram v s h0 h1 hram⟩

/-- Settles O52: STA $00 and STA $01 are one write to a port register; a pin shows the latch where DDR is 1. -/
theorem portWritesDriveThePins : Obligations.PortWritesDriveThePins := by
  refine ⟨fun s => ?ddr, fun s => ⟨_, exec_staZpg 0x01 s, ?por⟩⟩
  case ddr =>
    have hsta := exec_staZpg 0x00 s
    rw [storeReg_zpg_ddr] at hsta
    exact ⟨_, _, hsta, rfl, rfl, rfl, exec_ldaZpg 0x00 _, loadA_zpg_ddr_a _ _⟩
  case por =>
    rw [storeReg_zpg_por]
    exact ⟨rfl, rfl, rfl, fun d k => ⟨rfl, rfl⟩⟩

/-! ### A store and a load after it -/

section
variable (w : Word) (s : State)

theorem exec_staAbs : exec (.staAbs w) s = .next (storeReg s.a (.abs w) 4 s) := rfl
theorem exec_stxAbs : exec (.stxAbs w) s = .next (storeReg s.x (.abs w) 4 s) := rfl
theorem exec_ldaAbs : exec (.ldaAbs w) s = .next (loadA (.mem (.abs w)) (readCost (.mem (.abs w))) s) := rfl
theorem exec_ldyAbs : exec (.ldyAbs w) s = .next (loadY (.mem (.abs w)) (readCost (.mem (.abs w))) s) := rfl

variable {w s} (v : Byte) (n : Nat)

/-- A store changes no flag. -/
theorem storeReg_p (m : AddrMode) : (storeReg v m n s).p = s.p :=
  (storeReg_effects v m n s).same.p_eq

/-- The operand at an address of RAM just stored to is the byte stored. -/
theorem readData_storeReg (h1 : w ≠ 0x0001#16) (hram : busKind s w = .ram) :
    (readData (.mem (.abs w)) (storeReg v (.abs w) n s)).val = v := by
  have hkind : busKind (storeReg v (.abs w) n s) w = .ram :=
    ((storeReg_effects v (.abs w) n s).same.busKind_eq w).trans hram
  calc (readData (.mem (.abs w)) (storeReg v (.abs w) n s)).val
      = byteAt (storeReg v (.abs w) n s) w := congrArg Prod.fst (memRead_plain (plainRead_of_ram h1 hkind).1)
    _ = v := (storeReg_stored v (.abs w) n s).1.trans (if_pos (plainRead_of_ram h1 hram).2)

/-- A store to RAM leaves the byte stored and every other byte. -/
theorem storeReg_byteAt (h1 : w ≠ 0x0001#16) (hram : busKind s w = .ram) (b : Word) :
    byteAt (storeReg v (.abs w) n s) b = if b = w then v else byteAt s b := by
  obtain ⟨hat, helse⟩ := storeReg_stored v (.abs w) n s
  split
  case isTrue h =>
    rw [h]
    exact hat.trans (if_pos (plainRead_of_ram h1 hram).2)
  case isFalse h => exact helse b h

end

/-- Settles O54: the load's operand is the byte stored (`readData_storeReg`); the effects of the two compose. -/
theorem storeThenLoadGivesTheByte : Obligations.StoreThenLoadGivesTheByte := by
  refine ⟨fun w s _ h1 hram => ⟨_, _, exec_staAbs w s, exec_ldaAbs w _, ?same, fun b => ?byte⟩,
    fun w s _ h1 hram => ⟨_, _, exec_stxAbs w s, exec_ldyAbs w _, ?value, ?flags⟩⟩
  case same =>
    have hload := loadA_effects (.mem (.abs w)) (storeReg s.a (.abs w) 4 s)
    rw [readData_storeReg s.a 4 h1 hram, storeReg_p] at hload
    have hstore := (((storeReg_effects s.a (.abs w) 4 s).setA s.a).setP (nzOf s.p s.a)).tick 4
    exact (hstore.trans hload).same
  case byte =>
    have hload := (loadA_effects (.mem (.abs w)) (storeReg s.a (.abs w) 4 s)).bytes b List.not_mem_nil
    rw [byteAt_tick, byteAt_setP, byteAt_setA] at hload
    exact hload.trans (storeReg_byteAt s.a 4 h1 hram b)
  case value => exact readData_storeReg s.x 4 h1 hram
  case flags =>
    have hload := loadY_effects (.mem (.abs w)) (storeReg s.x (.abs w) 4 s)
    rw [readData_storeReg s.x 4 h1 hram, storeReg_p] at hload
    exact hload.same.p_eq

/-! ### Effective addresses -/

section
variable (base : Word) (index : Byte) (s : State)

theorem indexed_addr : (indexed base index s).addr.toNat = (base.toNat + index.toNat) % 65536 := by
  show (base + zext index).toNat = _
  rw [BitVec.toNat_add, zext_toNat]

/-- An indexed address leaves its base's page exactly when the low bytes carry (R112, R116). -/
theorem indexed_crossed : (indexed base index s).crossed = decide (256 ≤ base.toNat % 256 + index.toNat) := by
  have haddr : (base + zext index).toNat = _ := indexed_addr base index s
  have hindex := index.isLt
  have hbase := base.isLt
  show (highByte (base + zext index) != highByte base) = _
  rw [Bool.eq_iff_iff, bne_iff_ne, decide_eq_true_iff, ne_eq, highByte_eq_iff, haddr]
  omega

end

/-- A pointer in page zero whose two bytes lie in plain locations gives the word stored there (R8, R113). -/
theorem read16ZP_plain {z : Byte} {s : State} {lo hi : Word} (hlo : lo.toNat = z.toNat)
    (hhi : hi.toNat = (z.toNat + 1) % 256) (hlow : plainRead s lo = true) (hhigh : plainRead s hi = true) :
    (read16ZP z s).1 = mkWord (byteAt s hi) (byteAt s lo) := by
  obtain rfl : lo = zext z := BitVec.eq_of_toNat_eq (hlo.trans (zext_toNat z).symm)
  obtain rfl : hi = zext (z + 1) :=
    BitVec.eq_of_toNat_eq (by rw [hhi, zext_toNat, byte_add_one_toNat])
  have hlowRead : SameButReads s (memRead (zext z) s).2 := memRead_same _ s
  have hafter : plainRead (memRead (zext z) s).2 (zext (z + 1)) = true := (hlowRead.plainRead_eq _).trans hhigh
  calc (read16ZP z s).1 = mkWord (memRead (zext (z + 1)) (memRead (zext z) s).2).1 (memRead (zext z) s).1 := rfl
    _ = _ := by rw [memRead_plain hafter, hlowRead.byteAt_eq, memRead_plain hlow]

/-- An operand in a plain location is the byte stored there (R107). -/
theorem readData_plain {m : AddrMode} {s : State} (h : plainRead s (resolve m s).addr = true) :
    (readData (.mem m) s).val = byteAt s (resolve m s).addr := by
  have hread : SameButReads s (resolve m s).st := resolve_same m s
  have hplain : plainRead (resolve m s).st (resolve m s).addr = true := (hread.plainRead_eq _).trans h
  exact (congrArg Prod.fst (memRead_plain hplain)).trans (hread.byteAt_eq _)

/-- The mode Zero Page,Y is that of LDX and STX alone (R110). -/
theorem mnemonic_of_zeroPageY {i : Instr} (h : i.mode = .zeroPageY) : i.mnemonic = .ldx ∨ i.mnemonic = .stx := by
  have honly : ∀ m : Mnemonic, Mode.zeroPageY ∈ m.modes → m = .ldx ∨ m = .stx := by
    intro m
    cases m <;> decide
  exact honly _ (h ▸ i.mode_mem_modes)

/-- Settles O55: sums by `indexed_addr` and `indexed_crossed`, pointers by `read16ZP_plain`. -/
theorem effectiveAddresses : Obligations.EffectiveAddresses := by
  have hsum (z index : Byte) : (zext (z + index)).toNat = (z.toNat + index.toNat) % 256 := by
    rw [zext_toNat, BitVec.toNat_add]
  refine ⟨fun z s => ⟨⟨zext_toNat z, rfl⟩, ⟨hsum z s.x, rfl⟩, ⟨hsum z s.y, rfl⟩⟩,
    fun w s => ⟨⟨rfl, rfl⟩, ⟨indexed_addr w s.x s, indexed_crossed w s.x s⟩,
      ⟨indexed_addr w s.y s, indexed_crossed w s.y s⟩⟩,
    fun z s lo hi hlo hhi hlow hhigh => ⟨?xInd, rfl⟩, fun z s lo hi hlo hhi hlow hhigh => ?indY,
    fun m s => readData_plain, fun m s => ⟨rfl, rfl⟩, fun i => mnemonic_of_zeroPageY⟩
  case xInd =>
    have hz : (z + s.x).toNat = (z.toNat + s.x.toNat) % 256 := BitVec.toNat_add z s.x
    have hword := read16ZP_plain (z := z + s.x) (by rw [hlo, hz]) (by rw [hhi, hz]; omega) hlow hhigh
    show (read16ZP (z + s.x) s).1.toNat = _
    rw [hword, mkWord_toNat]
  case indY =>
    have hword := read16ZP_plain hlo hhi hlow hhigh
    have hlt := (byteAt s lo).isLt
    show (indexed _ _ _).addr.toNat = _ ∧ (indexed _ _ _).crossed = _
    rw [indexed_addr, indexed_crossed, hword, mkWord_toNat]
    exact ⟨rfl, by congr 2; omega⟩

end Sys2Proof.Machine
end
